-- ==== Sys2Proof/Word.lean ====
section
/-! DEFINITION. The word types of the block (R9: `W_T` = 8, `W_I` = 32; R88: an event word is one byte). -/

namespace Sys2Proof

/-- The width `W_T` of the timer count and of the reload byte, and of an event word (R9, R87). -/
abbrev Byte := BitVec 8

/-- The width `W_I` of the three configuration constants (R8) and of the calculator's intermediates (R9). -/
abbrev Word32 := BitVec 32

end Sys2Proof
end

