-- ==== Sys2Proof/Config.lean ====
section
/-! DEFINITION. The fixed parameters of R9, the launch (the arguments R8 and R9 give the model), and the free values. -/

namespace Sys2Proof

/-- `Q_MAX`: the largest legal quotient (R9, R124). -/
abbrev Config.qMax : Nat := 25

/-- `RANGE_FACTOR`: the multiple of the base period in extended range (R9). -/
abbrev Config.rangeFactor : Nat := 10

/-- FREE VALUE. What `BASE_PERIOD` holds while it is unwritten, at each draw (R41: "a draw at `POR`"). Log 1. -/
opaque Config.unwrittenBasePeriod : Nat → BitVec 8

/-- FREE VALUE. What `ACTIVE_PERIOD` holds while it is unwritten, at each draw (R41). Log 1. -/
opaque Config.unwrittenActivePeriod : Nat → BitVec 8

/-- FREE VALUE. The undefined level of the port `PS_SEL` while it is unwritten, at each draw (R41). Log 1. -/
opaque Config.unwrittenPsSel : Nat → BitVec 3

/-- FREE VALUE. The event word the environment's schedule proposes at each draw, where no trace says
which operation comes next (R20, R237: any interleaving). Log 4. -/
opaque Config.schedule : Nat → BitVec 8

/-- The arguments of a launch (R8, R9), fixed from `POR` on: no operation writes one of them (R20).
Every value of these types is in the range R9 and R213 allow. -/
structure Launch where
  /-- `REF_HZ`, the reference clock in hertz (R8, R22). -/
  refHz : Word32
  /-- `FS_HZ`, the full-scale input frequency in hertz (R8, R22). -/
  fsHz : Word32
  /-- `PRESC`, the prescaler ratio itself and not a code (R8, R80). -/
  presc : Word32
  /-- `RST_PULSE_NOPS`, the no-op steps of the reset pulse; any natural number (R9, R161). -/
  rstPulseNops : Nat
  /-- `GATE_RESET`, the level of `GATE` after `POR` (R9, R231). -/
  gateReset : Bool
  /-- `TMR_RESET`, the value of `TMR` after `POR` (R9, R231). -/
  tmrReset : Byte
deriving DecidableEq, Repr

/-- The launch that `State.reset` stands for: that of program P1 of `95_test_vectors.md` (Scenario A, two
no-ops, the recommended `GATE_RESET` of R9). DESIGN CHOICE, unsafe, log 2: the spec leaves the launch open. -/
def Launch.programP1 : Launch where
  refHz := 12000000
  fsHz := 6400000
  presc := 64
  rstPulseNops := 2
  gateReset := false
  tmrReset := 0x00

end Sys2Proof
end

