-- ==== Sys2Proof/Syntax.lean ====
section
/-! DEFINITION. The ten operations (R90), the raw event word (R88) and the names of what a decoder rejects (R94). -/

namespace Sys2Proof

/-- The operations of the block, one constructor per row of R90's table. The only operand is the level of
`RANGE_N` that a `POLL` samples (R89). -/
inductive Instr where
  /-- `POR`, power-on reset (R231). -/
  | por
  /-- `INIT`, the Period Calculator (R111). -/
  | init
  /-- `TICK`, one count of the timer (R141). -/
  | tick
  /-- `POLL b`, one iteration of the Range Selector; `b` is the sampled level of `RANGE_N` (R181). -/
  | poll (b : Bool)
  /-- `ISR.ENTER`, the interrupt entry and reload (R156). -/
  | isrEnter
  /-- `ISR.TOGGLE`, flip the gate pin (R158). -/
  | isrToggle
  /-- `ISR.RSTHI`, drive the reset pin high (R160). -/
  | isrRsthi
  /-- `ISR.NOP`, one no-op of the reset pulse (R161). -/
  | isrNop
  /-- `ISR.RSTLO`, drive the reset pin low (R162). -/
  | isrRstlo
  /-- `ISR.RET`, return to the main loop (R163). -/
  | isrRet
deriving DecidableEq, Repr

/-- Format `EV` (R88), the fields of any byte, well formed or not. -/
structure EventWord where
  /-- Bits 7:4, the operation code. -/
  op : BitVec 4
  /-- Bits 3:1, which must be 0. -/
  zero : BitVec 3
  /-- Bit 0, the operand of `POLL`; 0 for every other operation. -/
  b : BitVec 1
deriving DecidableEq, Repr

/-- Why a byte is no event word, in the order of R94's checks. -/
inductive BadWord where
  /-- There is no byte to read. -/
  | noByte
  /-- `zero` is not 0 (R91, R94). -/
  | zeroField
  /-- `op` names no operation: 0xA to 0xF (R91, R94). -/
  | opCode
  /-- `b` is 1 and the operation is not `POLL` (R91, R94). -/
  | operandBit
deriving DecidableEq, Repr

end Sys2Proof
end

