-- ==== Sys2Proof/Machine/State.lean ====
section
/-! DEFINITION. The state: the thirteen registers of R21, the launch, and the model's own `trace` and `draws`. -/

namespace Sys2Proof.Machine

open Sys2Proof

/-- `MODE` (R26). Code 3 is reserved and never written; the model does not represent it (R85, log 7). -/
inductive Mode where
  /-- Code 0: after `POR`, before the Period Calculator has run. -/
  | boot
  /-- Code 1: configuration valid, interrupt enabled. -/
  | run
  /-- Code 2: the permanent halt state (R199). -/
  | halt
deriving DecidableEq, Repr

/-- `SEQ`, the next step of the sequencer (R26). Codes 5 to 7 are reserved and never written; not represented (R85, log 7). -/
inductive Seq where
  /-- Code 0: main-loop context, no handler active. -/
  | main
  /-- Code 1: next is `ISR.TOGGLE`. -/
  | sToggle
  /-- Code 2: next is `ISR.RSTHI`. -/
  | sRsthi
  /-- Code 3: next is `ISR.NOP` while `NOPCNT > 0`, else `ISR.RSTLO`. -/
  | sDelay
  /-- Code 4: next is `ISR.RET`. -/
  | sRet
deriving DecidableEq, Repr

/-- The causes of the configuration fault (R197). -/
inductive Cause where
  /-- Code 1, `REF_ILLEGAL`. -/
  | refIllegal
  /-- Code 2, `RAW_NONINTEGRAL`. -/
  | rawNonintegral
  /-- Code 3, `PRESC_UNSUPPORTED`. -/
  | prescUnsupported
  /-- Code 4, `NOT_DIVISIBLE`. -/
  | notDivisible
  /-- Code 5, `QUOTIENT_RANGE`. -/
  | quotientRange
deriving DecidableEq, Repr

/-- The state of the machine. The first thirteen fields are R21's registers in the order of its index. -/
structure State where
  /-- `x[0]` `MODE`. -/
  mode : Mode
  /-- `x[1]` `SEQ`. -/
  seq : Seq
  /-- `x[2]` `BASE_PERIOD` (R23). -/
  basePeriod : Byte
  /-- `x[3]` `ACTIVE_PERIOD`, the shared cell (R24). -/
  activePeriod : Byte
  /-- `x[4]` `PS_SEL`, output port (R30). -/
  psSel : BitVec 3
  /-- `x[5]` `TMR`, the timer's count (R25). -/
  tmr : Byte
  /-- `x[6]` `TIF`, the expiry flag (R28). -/
  tif : Bool
  /-- `x[7]` `TIE`, the enable of the expiry interrupt (R29). -/
  tie : Bool
  /-- `x[8]` `GATE`, output pin, read back (R32). -/
  gate : Bool
  /-- `x[9]` `RST_OUT`, output pin (R33). -/
  rstOut : Bool
  /-- `x[10]` `IND`, output pin (R34). -/
  ind : Bool
  /-- `x[11]` `NOPCNT`, the no-op steps left in the reset pulse (R37). -/
  nopCnt : Nat
  /-- `x[12]` `CFG_CAUSE`, the code of the last configuration fault (R31). -/
  cfgCause : BitVec 3
  /-- The arguments of the launch (R8, R9). No operation writes them (R20). Log 2. -/
  launch : Launch
  /-- MODEL's own: the event words of the trace still to be replayed (R15, R91). Log 3. -/
  trace : List Byte
  /-- MODEL's own: the counter the free values are applied to. Log 1, log 4. -/
  draws : Nat
deriving DecidableEq, Repr

/-- No operation of the block faults in the model's sense (R200, R213): the configuration fault is a next
state. The type has no constructor. Safe: nothing raises it. -/
inductive Fault where
deriving DecidableEq, Repr

/-- What the model refuses, at its boundary only (R213). -/
inductive Refusal where
  /-- Raised by `exec` for an operation that has no meaning yet: none is left. Safe. -/
  | notModelled (mnemonic : String)
  /-- Raised by `step` where the next byte of the trace is no event word: "the model refuses it" (R91). Safe. -/
  | invalidWord (why : BadWord)
  /-- Raised by a meaning whose operation is not enabled at the state it meets: it is not a step of the
  hardware and the trace is no run (R12, R93). Safe. -/
  | notEnabled (i : Instr)
deriving DecidableEq, Repr

/-- The outcome of an operation. -/
abbrev Result := Host.Outcome State Fault Refusal

/-- The state right after a `POR` (R231) under a launch, with a trace to replay; the unwritten registers hold
the free values of draw `n` (R41, log 1). -/
def State.resetWith (l : Launch) (tr : List Byte) (n : Nat) : State where
  mode := .boot
  seq := .main
  basePeriod := Config.unwrittenBasePeriod n
  activePeriod := Config.unwrittenActivePeriod n
  psSel := Config.unwrittenPsSel n
  tmr := l.tmrReset
  tif := false
  tie := false
  gate := l.gateReset
  rstOut := false
  ind := false
  nopCnt := 0
  cfgCause := 0
  launch := l
  trace := tr
  draws := n + 1

/-- The machine right after reset: R231 under the launch of log 2, with no trace loaded (log 3). -/
def State.reset : State := State.resetWith Launch.programP1 [] 0

end Sys2Proof.Machine
end

