-- ==== Sys2Proof/Machine/Flags.lean ====
section
/-! DEFINITION. The one flag, `TIF` (R28), and the interrupt condition made from it (R201). -/

namespace Sys2Proof.Machine

open Sys2Proof

/-- An expiry: the `TICK` finds `TMR = 0xFF` (R15, R141). -/
def expires (tmr : Byte) : Bool := tmr == 0xFF#8

/-- `TIF` after a `TICK`: set at an expiry, else as it was; a `TICK` never clears it (R141). -/
def tifAfterTick (tmr : Byte) (tif : Bool) : Bool := tif || expires tmr

/-- The interrupt condition `TIF = 1` and `TIE = 1` (R201). -/
def interruptPending (s : State) : Bool := s.tif && s.tie

end Sys2Proof.Machine
end

