-- ==== Sys2Proof/Machine/Operands.lean ====
section
/-! DEFINITION. The arithmetic of R11 on bytes, the operand of `POLL` (R89), the codes of R81, R85 and R197. -/

namespace Sys2Proof.Machine

open Sys2Proof

/-- `neg8(v) = (256 - v) mod 256`, the 8-bit two's complement negation (R11). -/
def neg8 (v : Nat) : Byte := BitVec.ofNat 8 (256 - v % 256)

/-- `ticks(v)`: the number of `TICK`s until the timer next expires when it holds `v` (R11). -/
def ticks (v : Byte) : Nat := 256 - v.toNat

/-- `sint8(v)`: the signed reading of a byte (R11). No rule reads a byte so (R183). -/
def sint8 (v : Byte) : Int := if v.toNat < 128 then (v.toNat : Int) else (v.toNat : Int) - 256

/-- The extended-range byte `(10 * BASE_PERIOD) mod 256` (R182). -/
def extendedByte (base : Byte) : Byte := BitVec.ofNat 8 (Config.rangeFactor * base.toNat)

/-- Extended range is requested when the sampled level of `RANGE_N` is 0, active-low (R84, R89). -/
def extendedRequested (b : Bool) : Bool := !b

/-- The reload byte a `POLL` stores for the range it sampled (R181). -/
def rangeByte (extended : Bool) (base : Byte) : Byte := if extended then extendedByte base else base

/-- The prescaler select code `log2(PRESC) - 1` of the eight legal ratios (R81); no code for any other (R80). -/
def prescCode (p : Nat) : Option (BitVec 3) :=
  match p with
  | 2 => some 0b000
  | 4 => some 0b001
  | 8 => some 0b010
  | 16 => some 0b011
  | 32 => some 0b100
  | 64 => some 0b101
  | 128 => some 0b110
  | 256 => some 0b111
  | _ => none

/-- The code of `MODE` (R26, R85). -/
def modeCode : Mode → BitVec 2
  | .boot => 0
  | .run => 1
  | .halt => 2

/-- The code of `SEQ` (R26, R85). -/
def seqCode : Seq → BitVec 3
  | .main => 0
  | .sToggle => 1
  | .sRsthi => 2
  | .sDelay => 3
  | .sRet => 4

/-- The code of a cause in `CFG_CAUSE` (R197). -/
def causeCode : Cause → BitVec 3
  | .refIllegal => 1
  | .rawNonintegral => 2
  | .prescUnsupported => 3
  | .notDivisible => 4
  | .quotientRange => 5

end Sys2Proof.Machine
end

