-- ==== Sys2Proof/Machine/Ops.lean ====
section
/-! DEFINITION. The named operations over the registers. Each is one atomic step: all reads see the state
before it, all writes land together (R12). Enabling is not theirs: `Machine/Enabled.lean`. -/

namespace Sys2Proof.Machine

open Sys2Proof

/-- TAKING THE CONFIGURATION FAULT, `raise ConfigFault(cause)`: `CFG_CAUSE <- cause; MODE <- HALT`, nothing
else is written, nothing is saved (R196, R116). There is no return: only `POR` leaves `HALT` (R199). -/
def raiseConfigFault (cause : Cause) (s : State) : State :=
  { s with cfgCause := causeCode cause, mode := .halt }

/-- TAKING THE TIMER INTERRUPT: clear the flag, reload the timer from the shared cell, go to the handler's
first step; nothing is saved and no mode or mask is written (R156, R203). -/
def takeInterrupt (s : State) : State :=
  { s with tif := false, tmr := s.activePeriod, seq := .sToggle }

/-- RETURNING FROM THE INTERRUPT: back to the main loop; nothing is restored and `TIF` is left alone (R163, R205). -/
def returnFromInterrupt (s : State) : State :=
  { s with seq := .main }

/-- The writes of `POR`: all thirteen registers; the launch is not state and stays (R231). The unwritten
registers take the free values of the next draw (R41, log 1); the model's trace is not the block's and stays. -/
def powerOnReset (s : State) : State where
  mode := .boot
  seq := .main
  basePeriod := Config.unwrittenBasePeriod s.draws
  activePeriod := Config.unwrittenActivePeriod s.draws
  psSel := Config.unwrittenPsSel s.draws
  tmr := s.launch.tmrReset
  tif := false
  tie := false
  gate := s.launch.gateReset
  rstOut := false
  ind := false
  nopCnt := 0
  cfgCause := 0
  launch := s.launch
  trace := s.trace
  draws := s.draws + 1

/-- The six writes of a successful `INIT` (R111, R112). -/
def startRunning (period : Byte) (ps : BitVec 3) (s : State) : State :=
  { s with
    basePeriod := period
    activePeriod := period
    psSel := ps
    cfgCause := 0
    tie := true
    mode := .run }

/-- One count of the timer (R141). -/
def countTimer (s : State) : State :=
  { s with tif := tifAfterTick s.tmr s.tif, tmr := s.tmr + 1#8 }

/-- One iteration of the Range Selector: the cell and the indicator in one step, the cell computed from the
base and never from itself (R181, R182). -/
def selectRange (extended : Bool) (s : State) : State :=
  { s with activePeriod := rangeByte extended s.basePeriod, ind := extended }

/-- Read the gate pin back and flip it; a reset pulse follows only if the gate opened (R158). -/
def toggleGate (s : State) : State :=
  { s with gate := !s.gate, seq := if s.gate then .sRet else .sRsthi }

/-- Drive the reset pin high and start counting the pulse's no-ops (R160). -/
def raiseReset (s : State) : State :=
  { s with rstOut := true, nopCnt := s.launch.rstPulseNops, seq := .sDelay }

/-- One no-op of the reset pulse (R161). -/
def delayNop (s : State) : State :=
  { s with nopCnt := s.nopCnt - 1 }

/-- Drive the reset pin low again (R162). -/
def lowerReset (s : State) : State :=
  { s with rstOut := false, seq := .sRet }

/-- An operation that is enabled takes its next state; one that is not enabled is not a step, and the model
refuses the trace (R12, R93). -/
def perform (i : Instr) (isEnabled : Bool) (t : State) : Result :=
  if isEnabled then .next t else .refused (.notEnabled i)

end Sys2Proof.Machine
end

