-- ==== Sys2Proof/Machine/Enabled.lean ====
section
/-! DEFINITION. `enabled(op)`: the condition under which each operation is a step (R12, R95 and each operation's rule). -/

namespace Sys2Proof.Machine

open Sys2Proof

/-- `POR` is always enabled (R231). -/
def porEnabled (_s : State) : Bool := true

/-- `INIT`: `MODE = BOOT` (R111). -/
def initEnabled (s : State) : Bool := s.mode == .boot

/-- `TICK` is enabled in every `MODE` and every `SEQ` from the first `POR` on (R141); every `State` is after a `POR`. -/
def tickEnabled (_s : State) : Bool := true

/-- `POLL`: `MODE = RUN` and `SEQ = MAIN` and not (`TIF = 1` and `TIE = 1`) (R181). -/
def pollEnabled (s : State) : Bool := s.mode == .run && s.seq == .main && !interruptPending s

/-- `ISR.ENTER`: `MODE = RUN` and `SEQ = MAIN` and `TIF = 1` and `TIE = 1` (R156). -/
def isrEnterEnabled (s : State) : Bool := s.mode == .run && s.seq == .main && interruptPending s

/-- `ISR.TOGGLE`: `MODE = RUN` and `SEQ = S_TOGGLE` (R158). -/
def isrToggleEnabled (s : State) : Bool := s.mode == .run && s.seq == .sToggle

/-- `ISR.RSTHI`: `MODE = RUN` and `SEQ = S_RSTHI` (R160). -/
def isrRsthiEnabled (s : State) : Bool := s.mode == .run && s.seq == .sRsthi

/-- `ISR.NOP`: `MODE = RUN` and `SEQ = S_DELAY` and `NOPCNT > 0` (R161). -/
def isrNopEnabled (s : State) : Bool := s.mode == .run && s.seq == .sDelay && s.nopCnt != 0

/-- `ISR.RSTLO`: `MODE = RUN` and `SEQ = S_DELAY` and `NOPCNT = 0` (R162). -/
def isrRstloEnabled (s : State) : Bool := s.mode == .run && s.seq == .sDelay && s.nopCnt == 0

/-- `ISR.RET`: `MODE = RUN` and `SEQ = S_RET` (R163). -/
def isrRetEnabled (s : State) : Bool := s.mode == .run && s.seq == .sRet

/-- The table of R95. -/
def enabled (i : Instr) (s : State) : Bool :=
  match i with
  | .por => porEnabled s
  | .init => initEnabled s
  | .tick => tickEnabled s
  | .poll _ => pollEnabled s
  | .isrEnter => isrEnterEnabled s
  | .isrToggle => isrToggleEnabled s
  | .isrRsthi => isrRsthiEnabled s
  | .isrNop => isrNopEnabled s
  | .isrRstlo => isrRstloEnabled s
  | .isrRet => isrRetEnabled s

end Sys2Proof.Machine
end

