-- ==== Sys2Proof/Machine/GateDriver.lean ====
section
/-! DEFINITION. The six operations of the Gate/Reset Driver (`42_gate_reset_driver.md`). -/

namespace Sys2Proof.Machine

open Sys2Proof

/-- `ISR.ENTER`, the interrupt entry (R156). -/
def execIsrEnter (s : State) : Result := perform .isrEnter (isrEnterEnabled s) (takeInterrupt s)

/-- `ISR.TOGGLE` (R158). -/
def execIsrToggle (s : State) : Result := perform .isrToggle (isrToggleEnabled s) (toggleGate s)

/-- `ISR.RSTHI` (R160). -/
def execIsrRsthi (s : State) : Result := perform .isrRsthi (isrRsthiEnabled s) (raiseReset s)

/-- `ISR.NOP` (R161). -/
def execIsrNop (s : State) : Result := perform .isrNop (isrNopEnabled s) (delayNop s)

/-- `ISR.RSTLO` (R162). -/
def execIsrRstlo (s : State) : Result := perform .isrRstlo (isrRstloEnabled s) (lowerReset s)

/-- `ISR.RET`, the return from the interrupt (R163). -/
def execIsrRet (s : State) : Result := perform .isrRet (isrRetEnabled s) (returnFromInterrupt s)

end Sys2Proof.Machine
end

