-- ==== Sys2Proof/Machine/PeriodCalculator.lean ====
section
/-! DEFINITION. The Period Calculator: the function `pcalc` and the operation `INIT` (`40_period_calculator.md`). -/

namespace Sys2Proof.Machine

open Sys2Proof

/-- What `pcalc` returns (R110). -/
inductive PcalcResult where
  /-- A legal configuration: the exact `raw`, the quotient, the reload byte, the prescaler code. -/
  | valid (raw q : Nat) (period : Byte) (ps : BitVec 3)
  /-- An invalid configuration: the first cause that holds (R115). -/
  | invalid (cause : Cause)
deriving DecidableEq, Repr

/-- Steps 2 to 4 of `pcalc`: divide the exact `raw` by the prescaler, check the range, negate (R113). -/
def pcalcQuotient (raw p : Nat) : PcalcResult :=
  match prescCode p with
  | none => .invalid .prescUnsupported
  | some ps =>
    if raw % p ≠ 0 then .invalid .notDivisible
    else if raw / p > Config.qMax then .invalid .quotientRange
    else .valid raw (raw / p) (neg8 (raw / p)) ps

/-- Step 1 of `pcalc` from `t3` on: divide by `FS_HZ / 1000`, guarded (R113, R123). -/
def pcalcRaw (t3 fs p : Nat) : PcalcResult :=
  if fs % 1000 ≠ 0 then .invalid .rawNonintegral
  else if fs / 1000 = 0 then .invalid .rawNonintegral
  else if t3 % (fs / 1000) ≠ 0 then .invalid .rawNonintegral
  else pcalcQuotient (t3 / (fs / 1000)) p

/-- `pcalc(ref, fs, p)` in exact naturals, each division checked, the first failing line deciding (R113,
R115). No intermediate reaches 2^32, so this is the 32-bit computation (R114). -/
def pcalc (ref fs p : Nat) : PcalcResult :=
  if ref < 4000000 then .invalid .refIllegal
  else if ref % 1000000 ≠ 0 then .invalid .refIllegal
  else if ref / 1000000 % 4 ≠ 0 then .invalid .rawNonintegral
  else pcalcRaw (ref / 1000000 / 4 * 2048000) fs p

/-- `pcalc` of a launch's constants (R111). -/
def pcalcLaunch (l : Launch) : PcalcResult := pcalc l.refHz.toNat l.fsHz.toNat l.presc.toNat

/-- The writes of `INIT`: those of a successful calculation, or the configuration fault (R111, R112, R116). -/
def initialise (s : State) : State :=
  match pcalcLaunch s.launch with
  | .valid _ _ period ps => startRunning period ps s
  | .invalid cause => raiseConfigFault cause s

/-- `INIT` (R111). -/
def execInit (s : State) : Result := perform .init (initEnabled s) (initialise s)

/-- `pcalc` on 32-bit registers, as the document asks ("a 32-bit intermediate is required", R113): the same
lines with every value a 32-bit word and arithmetic modulo 2^32. R114 says it computes the same. -/
def pcalc32 (ref fs p : Word32) : PcalcResult :=
  if ref < 4000000 then .invalid .refIllegal
  else if ref % 1000000 ≠ 0 then .invalid .refIllegal
  else
    let t1 := ref / 1000000
    if t1 % 4 ≠ 0 then .invalid .rawNonintegral
    else
      let t3 := t1 / 4 * 2048000
      if fs % 1000 ≠ 0 then .invalid .rawNonintegral
      else
        let d := fs / 1000
        if d = 0 then .invalid .rawNonintegral
        else if t3 % d ≠ 0 then .invalid .rawNonintegral
        else
          let raw := t3 / d
          match prescCode p.toNat with
          | none => .invalid .prescUnsupported
          | some ps =>
            if raw % p ≠ 0 then .invalid .notDivisible
            else
              let q := raw / p
              if q > 25 then .invalid .quotientRange
              else .valid raw.toNat q.toNat (neg8 q.toNat) ps

/-- Reading (b) of R121, exact rational: the quotient `512 * ref / (fs * p)` if it is a whole number from 1 to
25 and the prescaler is legal. No rule of the block uses it (log 5). -/
def quotientRational (ref fs p : Nat) : Option Nat :=
  if (prescCode p).isNone ∨ fs = 0 then none
  else if 512 * ref % (fs * p) ≠ 0 then none
  else
    let q := 512 * ref / (fs * p)
    if 1 ≤ q ∧ q ≤ Config.qMax then some q else none

/-- Reading (c) of R121, truncating: every division of the formula drops its remainder; the prescaler's
division and the range are still checked. No rule of the block uses it (log 5). -/
def quotientTruncating (ref fs p : Nat) : Option Nat :=
  if (prescCode p).isNone ∨ fs / 1000 = 0 then none
  else
    let raw := ref / 1000000 / 4 * 2048000 / (fs / 1000)
    if raw % p ≠ 0 then none
    else if 1 ≤ raw / p ∧ raw / p ≤ Config.qMax then some (raw / p) else none

/-- A disputed configuration: the block's reading rejects it and reading (b) or (c) accepts it (R121, D38). -/
def disputed (ref fs p : Nat) : Bool :=
  match pcalc ref fs p with
  | .valid .. => false
  | .invalid _ => (quotientRational ref fs p).isSome || (quotientTruncating ref fs p).isSome

end Sys2Proof.Machine
end

