-- ==== Sys2Proof/Machine/RangeSelector.lean ====
section
/-! DEFINITION. The operation `POLL b` (`43_range_selector.md`). -/

namespace Sys2Proof.Machine

open Sys2Proof

/-- `POLL b` (R181). -/
def execPoll (b : Bool) (s : State) : Result :=
  perform (.poll b) (pollEnabled s) (selectRange (extendedRequested b) s)

end Sys2Proof.Machine
end

