-- ==== Sys2Proof/Machine/Reset.lean ====
section
/-! DEFINITION. The operation `POR` (`70_reset_and_hazards.md`). -/

namespace Sys2Proof.Machine

open Sys2Proof

/-- `POR` (R231). -/
def execPor (s : State) : Result := perform .por (porEnabled s) (powerOnReset s)

end Sys2Proof.Machine
end

