-- ==== Sys2Proof/Machine/Timer.lean ====
section
/-! DEFINITION. The operation `TICK` (`41_timer.md`). -/

namespace Sys2Proof.Machine

open Sys2Proof

/-- `TICK` (R141). -/
def execTick (s : State) : Result := perform .tick (tickEnabled s) (countTimer s)

end Sys2Proof.Machine
end

