-- ==== Sys2Proof/Machine/Dispatch.lean ====
section
/-! DEFINITION. The meaning of every operation, one arm per row of R90's table. -/

namespace Sys2Proof.Machine

open Sys2Proof

def exec (i : Instr) (s : State) : Host.Outcome State Fault Refusal :=
  match i with
  | .por => Sys2Proof.Machine.execPor s
  | .init => Sys2Proof.Machine.execInit s
  | .tick => Sys2Proof.Machine.execTick s
  | .poll b => Sys2Proof.Machine.execPoll b s
  | .isrEnter => Sys2Proof.Machine.execIsrEnter s
  | .isrToggle => Sys2Proof.Machine.execIsrToggle s
  | .isrRsthi => Sys2Proof.Machine.execIsrRsthi s
  | .isrNop => Sys2Proof.Machine.execIsrNop s
  | .isrRstlo => Sys2Proof.Machine.execIsrRstlo s
  | .isrRet => Sys2Proof.Machine.execIsrRet s

end Sys2Proof.Machine
end

