-- ==== Sys2Proof/WellFormed.lean ====
section
/-! DEFINITION. Which raw event words are well formed (R88, R91), one check per condition of R94. -/

namespace Sys2Proof

/-- The field `zero` must be 0 (R88). -/
def EventWord.zeroClear (e : EventWord) : Bool := e.zero == 0#3

/-- `op` must name one of the ten operations (R90, R91). -/
def EventWord.opNamed (e : EventWord) : Bool := e.op ≤ 9#4

/-- `b` may be 1 for `POLL` (`op` 3) only (R88). -/
def EventWord.operandAllowed (e : EventWord) : Bool := e.b == 0#1 || e.op == 3#4

/-- All three conditions of R91: the word is one of the eleven valid ones. -/
def EventWord.wellFormed (e : EventWord) : Bool := e.zeroClear && e.opNamed && e.operandAllowed

/-- Every term of `Instr` is well formed: the one operand is one bit, taken as it stands (R89), and its type says so. -/
def Instr.wellFormed : Instr → Bool
  | .por => true
  | .init => true
  | .tick => true
  | .poll _ => true
  | .isrEnter => true
  | .isrToggle => true
  | .isrRsthi => true
  | .isrNop => true
  | .isrRstlo => true
  | .isrRet => true

end Sys2Proof
end

