-- ==== Sys2Proof/Decode.lean ====
section
/-! DEFINITION. The decoder of event words (R94), total on any bytes, and the encoder (R90). -/

namespace Sys2Proof

/-- The fields of a byte (R88). -/
def eventFields (w : Byte) : EventWord where
  op := w.extractLsb' 4 4
  zero := w.extractLsb' 1 3
  b := w.extractLsb' 0 1

/-- The byte of given fields, `op` on the most significant side (R88, R10). -/
def eventByte (e : EventWord) : Byte := e.op ++ e.zero ++ e.b

/-- The operation of a code (R90); codes 0xA to 0xF name none. -/
def opInstr (op : BitVec 4) (b : Bool) : Except BadWord Instr :=
  match op.toNat with
  | 0 => .ok .por
  | 1 => .ok .init
  | 2 => .ok .tick
  | 3 => .ok (.poll b)
  | 4 => .ok .isrEnter
  | 5 => .ok .isrToggle
  | 6 => .ok .isrRsthi
  | 7 => .ok .isrNop
  | 8 => .ok .isrRstlo
  | 9 => .ok .isrRet
  | _ => .error .opCode

/-- `decode(w)` of R94: the checks of `zero`, `op` and `b` in that order, then the operation of R90. -/
def decodeWord (w : Byte) : Except BadWord Instr :=
  let e := eventFields w
  if e.zeroClear = false then .error .zeroField
  else if e.opNamed = false then .error .opCode
  else if e.operandAllowed = false then .error .operandBit
  else opInstr e.op (e.b == 1#1)

/-- Read one operation from a sequence of bytes: its length is always one byte (R87, R94). -/
def decode : List Byte → Except BadWord (Instr × List Byte)
  | [] => .error .noByte
  | w :: rest =>
    match decodeWord w with
    | .ok i => .ok (i, rest)
    | .error e => .error e

/-- The bit that spells the level of `RANGE_N` (R89: `b = 0` is pressed, `b = 1` is released). -/
def levelBit (b : Bool) : BitVec 1 := BitVec.ofBool b

/-- The fields of an operation's word (R88, R90). -/
def instrFields : Instr → EventWord
  | .por => ⟨0x0, 0, 0⟩
  | .init => ⟨0x1, 0, 0⟩
  | .tick => ⟨0x2, 0, 0⟩
  | .poll b => ⟨0x3, 0, levelBit b⟩
  | .isrEnter => ⟨0x4, 0, 0⟩
  | .isrToggle => ⟨0x5, 0, 0⟩
  | .isrRsthi => ⟨0x6, 0, 0⟩
  | .isrNop => ⟨0x7, 0, 0⟩
  | .isrRstlo => ⟨0x8, 0, 0⟩
  | .isrRet => ⟨0x9, 0, 0⟩

/-- The event word of an operation (R90). -/
def encodeWord (i : Instr) : Byte := eventByte (instrFields i)

/-- The bytes of an operation: one (R87). -/
def encode (i : Instr) : List Byte := [encodeWord i]

/-- A table row's word laid out as bytes: every operation is one byte (R87), and bits from `nbits` up are 0. -/
def tableBytes (nbits w : Nat) : List Byte := [BitVec.ofNat 8 (w % 2 ^ nbits)]

/-- The operation the decoder reads from the word `w` of a table row of `nbits` bits; none where it refuses. -/
def decodeTableWord (nbits w : Nat) : Option Instr :=
  match decode (tableBytes nbits w) with
  | .ok (i, _) => some i
  | .error _ => none

end Sys2Proof
end

