-- ==== Sys2Proof/Machine/Fetch.lean ====
section
/-! DEFINITION. Which operation comes next. The hardware fetches nothing (R87): the next operation is the
schedule's, and the schedule is the trace in `State`, or a free choice where the trace has run out (log 3, log 4). -/

namespace Sys2Proof.Machine

open Sys2Proof

/-- The schedule's free choice where no trace says what comes next: an operation that is enabled. The
proposal of `Config.schedule` is taken if it is an enabled operation, else the timer counts, which is always
enabled (R95, R141); so every run is the choice of some schedule (R237). Log 4. -/
def freeChoice (s : State) : Instr :=
  match decodeWord (Config.schedule s.draws) with
  | .ok i => if enabled i s then i else .tick
  | .error _ => .tick

/-- The next operation, and the state with the trace moved past its word (or the free choice drawn). An
invalid word is refused: the trace is not a trace of the hardware (R91). -/
def fetch (s : State) : Except Refusal (Instr × State) :=
  match s.trace with
  | [] => .ok (freeChoice s, { s with draws := s.draws + 1 })
  | w :: rest =>
    match decode (w :: rest) with
    | .ok (i, rest') => .ok (i, { s with trace := rest' })
    | .error e => .error (.invalidWord e)

/-- Put a table row's word where `fetch` reads next: in front of the trace. -/
def placeWord (nbits w : Nat) (s : State) : State :=
  { s with trace := tableBytes nbits w ++ s.trace }

end Sys2Proof.Machine
end

