-- ==== Sys2Proof/Machine/Step.lean ====
section
/-! DEFINITION. One step of the machine: the next operation of the schedule, performed (R13, R67). -/

namespace Sys2Proof.Machine

open Sys2Proof

/-- One step: fetch the next operation and execute it. -/
def step (s : State) : Host.Outcome State Fault Refusal :=
  match fetch s with
  | .ok (i, s') => exec i s'
  | .error r => .refused r

/-- The state with a table row's word placed where `step` fetches next. -/
def State.withFetchWord (s : State) (nbits w : Nat) : State := placeWord nbits w s

end Sys2Proof.Machine
end

