-- ==== Sys2Proof/Machine/Trace.lean ====
section
/-! DEFINITION. Finite traces (R15) and the pseudo-events of R97. -/

namespace Sys2Proof.Machine

open Sys2Proof

/-- Perform a finite trace of events; it is a run only where every event is enabled at the state it meets (R15). -/
def runEvents : List Instr → State → Result
  | [], s => .next s
  | i :: is, s =>
    match exec i s with
    | .next t => runEvents is t
    | .fault r => .fault r
    | .refused r => .refused r

/-- How many `TICK`s a trace holds: the unit of time of the block (R143). -/
def ticksIn (is : List Instr) : Nat := is.count .tick

/-- An event or a pseudo-event (R97). -/
inductive PseudoEvent where
  /-- An event as it stands. -/
  | event (i : Instr)
  /-- `TICK*n`. -/
  | ticks (n : Nat)
  /-- `ISR.OPEN`. -/
  | isrOpen
  /-- `ISR.CLOSE`. -/
  | isrClose
  /-- `ISR`: the whole handler, whichever of the two the gate calls for. -/
  | isr
  /-- `HALF n`: `TICK*n; ISR`. -/
  | half (n : Nat)
deriving DecidableEq, Repr

/-- `ISR.OPEN`: a Closed → Open activation with no `TICK` inside (R155, R97). -/
def openEvents (nops : Nat) : List Instr :=
  [.isrEnter, .isrToggle, .isrRsthi] ++ List.replicate nops .isrNop ++ [.isrRstlo, .isrRet]

/-- `ISR.CLOSE`: an Open → Closed activation with no `TICK` inside (R155, R97). -/
def closeEvents : List Instr := [.isrEnter, .isrToggle, .isrRet]

/-- `ISR`: `ISR.OPEN` if `GATE = 0` at its start, `ISR.CLOSE` if `GATE = 1` (R97). -/
def handlerEvents (nops : Nat) (gate : Bool) : List Instr :=
  if gate then closeEvents else openEvents nops

/-- The expansions of R97, under a launch's `RST_PULSE_NOPS` and the level of `GATE` at the start. -/
def expand (nops : Nat) (gate : Bool) : PseudoEvent → List Instr
  | .event i => [i]
  | .ticks n => List.replicate n .tick
  | .isrOpen => openEvents nops
  | .isrClose => closeEvents
  | .isr => handlerEvents nops gate
  | .half n => List.replicate n .tick ++ handlerEvents nops gate

/-- Perform a trace written with pseudo-events, each expanded at the state it meets. -/
def runPseudo : List PseudoEvent → State → Result
  | [], s => .next s
  | e :: es, s =>
    match runEvents (expand s.launch.rstPulseNops s.gate e) s with
    | .next t => runPseudo es t
    | .fault r => .fault r
    | .refused r => .refused r

end Sys2Proof.Machine
end

