-- ==== Sys2Proof/Machine/TraceText.lean ====
section
/-! DEFINITION. The trace syntax of R96, read from characters. What R96 leaves open of it is log 6. -/

namespace Sys2Proof.Machine

open Sys2Proof

/-- A text as characters. -/
abbrev Text := List Char

/-- The pieces of a text between the characters that satisfy `sep`, empty pieces included. -/
def splitText (sep : Char → Bool) : Text → List Text
  | [] => [[]]
  | c :: cs =>
    if sep c then [] :: splitText sep cs
    else
      match splitText sep cs with
      | [] => [[c]]
      | p :: ps => (c :: p) :: ps

/-- A line up to its comment: `#` starts a comment to the end of the line (R96). -/
def cutComment (line : Text) : Text := line.takeWhile (· != '#')

/-- The words of an event or a header, separated by blanks. -/
def wordsOf (t : Text) : List Text :=
  (splitText (fun c => c == ' ' || c == '\t' || c == '\r') t).filter (fun w => !w.isEmpty)

/-- The events and headers of a text, as words: one a line or separated by `;` (R96). -/
def itemsOf (t : Text) : List (List Text) :=
  (((splitText (· == '\n') t).flatMap (fun line => splitText (· == ';') (cutComment line))).map wordsOf).filter
    (fun ws => !ws.isEmpty)

/-- The value of a digit in a base of at most 16. -/
def digitValue (base : Nat) (c : Char) : Option Nat :=
  let n := c.toNat
  let v := if 48 ≤ n ∧ n ≤ 57 then n - 48
    else if 97 ≤ n ∧ n ≤ 102 then n - 87
    else if 65 ≤ n ∧ n ≤ 70 then n - 55
    else 16
  if v < base then some v else none

/-- The number that digits spell, most significant first. -/
def digitsValue (base : Nat) : Text → Nat → Option Nat
  | [], acc => some acc
  | c :: cs, acc =>
    match digitValue base c with
    | some d => digitsValue base cs (base * acc + d)
    | none => none

/-- Numbers are decimal, or hexadecimal with `0x` (R96). -/
def numberOf (t : Text) : Option Nat :=
  match t with
  | [] => none
  | '0' :: 'x' :: c :: cs => digitsValue 16 (c :: cs) 0
  | c :: cs => digitsValue 10 (c :: cs) 0

/-- The rest of a text after a leading piece it begins with. -/
def afterPiece : Text → Text → Option Text
  | [], t => some t
  | _ :: _, [] => none
  | p :: ps, c :: cs => if p == c then afterPiece ps cs else none

/-- The number of a setting `NAME=<n>`. -/
def settingOf (name : Text) (w : Text) : Option Nat :=
  match afterPiece (name ++ ['=']) w with
  | some v => numberOf v
  | none => none

/-- A number as a word of `n` bits, if it fits: a launch outside its ranges is refused (R213). -/
def fitBits (n : Nat) (v : Nat) : Option (BitVec n) :=
  if v < 2 ^ n then some (BitVec.ofNat n v) else none

/-- The mnemonic of an operation, in capitals (R90, R96), without the operand of `POLL`. -/
def mnemonicText : Instr → Text
  | .por => ['P', 'O', 'R']
  | .init => ['I', 'N', 'I', 'T']
  | .tick => ['T', 'I', 'C', 'K']
  | .poll _ => ['P', 'O', 'L', 'L']
  | .isrEnter => ['I', 'S', 'R', '.', 'E', 'N', 'T', 'E', 'R']
  | .isrToggle => ['I', 'S', 'R', '.', 'T', 'O', 'G', 'G', 'L', 'E']
  | .isrRsthi => ['I', 'S', 'R', '.', 'R', 'S', 'T', 'H', 'I']
  | .isrNop => ['I', 'S', 'R', '.', 'N', 'O', 'P']
  | .isrRstlo => ['I', 'S', 'R', '.', 'R', 'S', 'T', 'L', 'O']
  | .isrRet => ['I', 'S', 'R', '.', 'R', 'E', 'T']

/-- The words of an event: `POLL` is followed by its operand (R96). -/
def eventText : Instr → List Text
  | .poll b => [mnemonicText (.poll b), [if b then '1' else '0']]
  | i => [mnemonicText i]

/-- All eleven events. -/
def allEvents : List Instr :=
  [.por, .init, .tick, .poll false, .poll true, .isrEnter, .isrToggle, .isrRsthi, .isrNop, .isrRstlo, .isrRet]

/-- The event that the words spell. -/
def eventOfWords (ws : List Text) : Option Instr := allEvents.find? (fun i => eventText i == ws)

/-- The pseudo-event that the words spell (R97). -/
def pseudoOfWords (ws : List Text) : Option PseudoEvent :=
  match ws with
  | [w] =>
    if w == ['I', 'S', 'R'] then some .isr
    else if w == ['I', 'S', 'R', '.', 'O', 'P', 'E', 'N'] then some .isrOpen
    else if w == ['I', 'S', 'R', '.', 'C', 'L', 'O', 'S', 'E'] then some .isrClose
    else
      match afterPiece ['T', 'I', 'C', 'K', '*'] w with
      | some v => (numberOf v).map .ticks
      | none => none
  | [w, n] => if w == ['H', 'A', 'L', 'F'] then (numberOf n).map .half else none
  | _ => none

/-- One item of a trace text. -/
inductive TraceItem where
  /-- `CONFIG REF_HZ=<n> FS_HZ=<n> PRESC=<n>` (R96). -/
  | config (refHz fsHz presc : Word32)
  /-- `PARAM` with those of its three settings that matter (R96). -/
  | param (rstPulseNops : Option Nat) (gateReset : Option Bool) (tmrReset : Option Byte)
  /-- An event or pseudo-event. -/
  | event (e : PseudoEvent)
deriving DecidableEq, Repr

/-- The settings of a `PARAM` header, in any order; a later one of a name stands. -/
def paramOfWords : List Text → Option Nat → Option Bool → Option Byte → Option TraceItem
  | [], n, g, t => some (.param n g t)
  | w :: ws, n, g, t =>
    match settingOf ['R', 'S', 'T', '_', 'P', 'U', 'L', 'S', 'E', '_', 'N', 'O', 'P', 'S'] w with
    | some v => paramOfWords ws (some v) g t
    | none =>
      match settingOf ['G', 'A', 'T', 'E', '_', 'R', 'E', 'S', 'E', 'T'] w with
      | some v => if v ≤ 1 then paramOfWords ws n (some (v == 1)) t else none
      | none =>
        match (settingOf ['T', 'M', 'R', '_', 'R', 'E', 'S', 'E', 'T'] w).bind (fitBits 8) with
        | some v => paramOfWords ws n g (some v)
        | none => none

/-- The `CONFIG` header: the three constants in the order R96 writes them. -/
def configOfWords (r f p : Text) : Option TraceItem :=
  match (settingOf ['R', 'E', 'F', '_', 'H', 'Z'] r).bind (fitBits 32),
      (settingOf ['F', 'S', '_', 'H', 'Z'] f).bind (fitBits 32),
      (settingOf ['P', 'R', 'E', 'S', 'C'] p).bind (fitBits 32) with
  | some r', some f', some p' => some (.config r' f' p')
  | _, _, _ => none

/-- The item that the words spell; none where they are no item of R96 and R97. -/
def itemOfWords (ws : List Text) : Option TraceItem :=
  match eventOfWords ws with
  | some i => some (.event (.event i))
  | none =>
    match pseudoOfWords ws with
    | some e => some (.event e)
    | none =>
      match ws with
      | [c, r, f, p] =>
        if c == ['C', 'O', 'N', 'F', 'I', 'G'] then configOfWords r f p
        else if c == ['P', 'A', 'R', 'A', 'M'] then paramOfWords [r, f, p] none none none
        else none
      | c :: rest => if c == ['P', 'A', 'R', 'A', 'M'] then paramOfWords rest none none none else none
      | [] => none

/-- A trace text as items; none where one of them cannot be read. -/
def parseTrace (t : Text) : Option (List TraceItem) := (itemsOf t).mapM itemOfWords

/-- The launch that the headers of a trace set, over a launch for what they leave unsaid. DESIGN CHOICE, log 6:
R96 only says that a launch is written before the trace; a header is taken wherever it stands, events before it
included, and of two settings of one name the last stands for the whole trace. -/
def launchOf : List TraceItem → Launch → Launch
  | [], l => l
  | .config r f p :: is, l => launchOf is { l with refHz := r, fsHz := f, presc := p }
  | .param n g t :: is, l =>
    launchOf is { l with
      rstPulseNops := n.getD l.rstPulseNops
      gateReset := g.getD l.gateReset
      tmrReset := t.getD l.tmrReset }
  | .event _ :: is, l => launchOf is l

/-- The events of a trace. -/
def eventsOf : List TraceItem → List PseudoEvent
  | [] => []
  | .event e :: is => e :: eventsOf is
  | .config .. :: is => eventsOf is
  | .param .. :: is => eventsOf is

/-- Launch the block as a trace text says and perform its events (its first event is a `POR`, R15). None
where the text cannot be read. -/
def runText (t : Text) (l : Launch) : Option Result :=
  (parseTrace t).map fun is => runPseudo (eventsOf is) (State.resetWith (launchOf is l) [] 0)

end Sys2Proof.Machine
end

