-- ==== Sys2Proof/Machine/Registers.lean ====
section
/-! DEFINITION. The register table of R21: index, width and contents as a number; and the output pins (R16). -/

namespace Sys2Proof.Machine

open Sys2Proof

/-- The thirteen registers of R21. -/
inductive Reg where
  | mode
  | seq
  | basePeriod
  | activePeriod
  | psSel
  | tmr
  | tif
  | tie
  | gate
  | rstOut
  | ind
  | nopCnt
  | cfgCause
deriving DecidableEq, Repr

/-- The register `x[i]` of the notation (R12, R21); a label and no address (R61). -/
def regOfIndex : Nat → Option Reg
  | 0 => some .mode
  | 1 => some .seq
  | 2 => some .basePeriod
  | 3 => some .activePeriod
  | 4 => some .psSel
  | 5 => some .tmr
  | 6 => some .tif
  | 7 => some .tie
  | 8 => some .gate
  | 9 => some .rstOut
  | 10 => some .ind
  | 11 => some .nopCnt
  | 12 => some .cfgCause
  | _ => none

/-- The width column of R21; `NOPCNT` is a natural number of no stated width. -/
def regWidth : Reg → Option Nat
  | .mode => some 2
  | .seq => some 3
  | .basePeriod => some 8
  | .activePeriod => some 8
  | .psSel => some 3
  | .tmr => some 8
  | .tif => some 1
  | .tie => some 1
  | .gate => some 1
  | .rstOut => some 1
  | .ind => some 1
  | .nopCnt => none
  | .cfgCause => some 3

/-- The contents of a register as the number its bits spell (R10, R85). -/
def readReg (r : Reg) (s : State) : Nat :=
  match r with
  | .mode => (modeCode s.mode).toNat
  | .seq => (seqCode s.seq).toNat
  | .basePeriod => s.basePeriod.toNat
  | .activePeriod => s.activePeriod.toNat
  | .psSel => s.psSel.toNat
  | .tmr => s.tmr.toNat
  | .tif => s.tif.toNat
  | .tie => s.tie.toNat
  | .gate => s.gate.toNat
  | .rstOut => s.rstOut.toNat
  | .ind => s.ind.toNat
  | .nopCnt => s.nopCnt
  | .cfgCause => s.cfgCause.toNat

/-- The levels a user of the block can see (R16, R22). `psSel` is a free value in `BOOT` and `HALT` (R41). -/
structure Pins where
  /-- `GATE`: 1 open, 0 closed (R84). -/
  gate : Bool
  /-- `RST_OUT`: 1 reset asserted (R84). -/
  rstOut : Bool
  /-- `IND`: 1 extended range active (R84). -/
  ind : Bool
  /-- `PS_SEL` (R81). -/
  psSel : BitVec 3
deriving DecidableEq, Repr

/-- The output pins of a state (R16). -/
def pins (s : State) : Pins := ⟨s.gate, s.rstOut, s.ind, s.psSel⟩

end Sys2Proof.Machine
end

