-- ==== Sys2Proof/Safety.lean ====
section
/-! DEFINITION. What claims speak of: legal configurations (R117), reachable states and their invariant (R42),
runs (R15), the premises on their schedule, `LAT(L)` (R238), `FITS` (R239) and `FAIR` (R246), and what R247 says
follows from them. -/

namespace Sys2Proof.Machine

open Sys2Proof

/-- The eight legal prescaler ratios (R8, R80). -/
def legalPrescalers : List Nat := [2, 4, 8, 16, 32, 64, 128, 256]

/-- The exact `raw` of R117 for a triple that satisfies its conditions 1 to 4. -/
def rawOf (ref fs : Nat) : Nat := ref / 4000000 * 2048000 / (fs / 1000)

/-- A legal configuration: the seven conditions of R117. -/
structure Legal (ref fs p : Nat) : Prop where
  /-- Condition 1. -/
  refRange : 4000000 ≤ ref ∧ 1000000 ∣ ref
  /-- Condition 2. -/
  refByFour : 4 ∣ ref / 1000000
  /-- Condition 3. -/
  fsRange : 1000 ∣ fs ∧ 1000 ≤ fs
  /-- Condition 4. -/
  rawExact : fs / 1000 ∣ ref / 4000000 * 2048000
  /-- Condition 5. -/
  prescLegal : p ∈ legalPrescalers
  /-- Condition 6. -/
  prescDivides : p ∣ rawOf ref fs
  /-- Condition 7. -/
  quotientRange : rawOf ref fs / p ≤ 25

/-- A launch whose configuration is legal (R15, R117). It can be checked before power-up (R127). -/
def LegalLaunch (l : Launch) : Prop := Legal l.refHz.toNat l.fsHz.toNat l.presc.toNat

/-- The states reachable from a `POR` by a run (R42), under any launch, with any trace to replay. -/
inductive Reachable : State → Prop where
  | reset (l : Launch) (tr : List Byte) (n : Nat) : Reachable (State.resetWith l tr n)
  | step {s t : State} : Reachable s → step s = .next t → Reachable t

/-- The invariant of the state: R42's six lines, with what makes them inductive (R37, R166, R183, R187). -/
structure StateInv (s : State) : Prop where
  /-- R42 line 1: `MODE = RUN` if and only if `TIE = 1`. -/
  tieRun : s.mode = .run ↔ s.tie = true
  /-- The reload byte and the prescaler code of a running block are the calculator's (R112). -/
  runLegal : s.mode = .run → ∃ raw q, pcalcLaunch s.launch = .valid raw q s.basePeriod s.psSel
  /-- R42 line 2: the shared cell is the base or ten times it, and the indicator says which (R187). -/
  runActive : s.mode = .run → s.activePeriod = rangeByte s.ind s.basePeriod
  /-- `RST_OUT` is 1 in the delay and only there (R33). -/
  pulse : s.rstOut = true ↔ s.seq = .sDelay
  /-- The gate is open from the toggle to the end of the pulse (R166). -/
  pulseGate : s.seq = .sRsthi ∨ s.seq = .sDelay → s.gate = true
  /-- R42 line 5: outside `RUN` no handler is active and the pins stand at their reset levels. -/
  idle : s.mode ≠ .run → s.seq = .main ∧ s.gate = s.launch.gateReset ∧ s.ind = false
  /-- `NOPCNT` is at most `RST_PULSE_NOPS` (R21). -/
  nopBound : s.nopCnt ≤ s.launch.rstPulseNops
  /-- `NOPCNT` is 0 outside the delay (R37). -/
  nopIdle : s.seq ≠ .sDelay → s.nopCnt = 0
  /-- R42 line 6, first half: a halted block holds the code of its configuration's fault. -/
  haltCause : s.mode = .halt → ∃ c, pcalcLaunch s.launch = .invalid c ∧ s.cfgCause = causeCode c
  /-- R42 line 6, second half; and no fault before `INIT` (R231). -/
  noCause : s.mode ≠ .halt → s.cfgCause = 0

/-- The steps of the handler (R90). -/
def isHandlerStep : Instr → Bool
  | .isrEnter => true
  | .isrToggle => true
  | .isrRsthi => true
  | .isrNop => true
  | .isrRstlo => true
  | .isrRet => true
  | .por => false
  | .init => false
  | .tick => false
  | .poll _ => false

/-- An infinite run: from a `POR`, every event enabled at the state it meets (R15, R248). -/
structure IsRun (ev : Nat → Instr) (st : Nat → State) : Prop where
  /-- It starts right after a `POR`, under some launch. -/
  start : ∃ l tr n, st 0 = State.resetWith l tr n
  /-- Each event takes the state to the next one. -/
  steps : ∀ n, exec (ev n) (st n) = .next (st (n + 1))

/-- The events from number `m` up to number `n`, `n` not included. -/
def eventsBetween (ev : Nat → Instr) (m n : Nat) : List Instr := (List.range' m (n - m)).map ev

/-- The ticks among those events. -/
def ticksBetween (ev : Nat → Instr) (m n : Nat) : Nat := ticksIn (eventsBetween ev m n)

/-- Event `n` is an expiry (R15). -/
def ExpiryAt (ev : Nat → Instr) (st : Nat → State) (n : Nat) : Prop :=
  ev n = .tick ∧ (st n).tmr = 0xFF#8

/-- Neither an `ISR.ENTER` nor a `POR` stands strictly between events `m` and `n`. -/
def NoServiceBetween (ev : Nat → Instr) (m n : Nat) : Prop :=
  ∀ k, m < k → k < n → ev k ≠ .isrEnter ∧ ev k ≠ .por

/-- Premise `LAT(L)` (R238): between a `TICK` that sets `TIF` while `SEQ = MAIN` and the `ISR.ENTER` that
follows, at most `L` further `TICK`s occur. -/
def Lat (L : Nat) (ev : Nat → Instr) (st : Nat → State) : Prop :=
  ∀ m n, m < n → ExpiryAt ev st m → (st m).tif = false → (st m).seq = .main → ev n = .isrEnter →
    NoServiceBetween ev m n → ticksBetween ev (m + 1) n ≤ L

/-- Premise `FITS` (R239): no expiry while `SEQ ≠ MAIN`. -/
def Fits (ev : Nat → Instr) (st : Nat → State) : Prop :=
  ∀ n, ExpiryAt ev st n → (st n).seq = .main

/-- Premise `FAIR` (R246). -/
structure Fair (ev : Nat → Instr) (st : Nat → State) : Prop where
  /-- (a) `TICK` occurs infinitely often. -/
  ticks : ∀ n, ∃ m, n ≤ m ∧ ev m = .tick
  /-- (b) An enabled `ISR.*` operation is eventually performed, unless a `POR` intervenes. -/
  handler : ∀ n i, isHandlerStep i = true → enabled i (st n) = true → ∃ m, n ≤ m ∧ (ev m = i ∨ ev m = .por)
  /-- (c) Whenever `MODE = RUN`, `POLL` occurs infinitely often. -/
  polls : ∀ n, (st n).mode = .run → ∀ k, ∃ m, k ≤ m ∧ ∃ b, ev m = .poll b
  /-- (d) In `BOOT`, `INIT` is eventually performed. -/
  boots : ∀ n, (st n).mode = .boot → ∃ m, n ≤ m ∧ ev m = .init

/-- Events `m` to `n` are one handler activation: an `ISR.ENTER`, and the next `ISR.RET` after it (R155). -/
structure IsActivation (ev : Nat → Instr) (m n : Nat) : Prop where
  /-- The return comes after the entry. -/
  order : m < n
  /-- It begins with the entry. -/
  enter : ev m = .isrEnter
  /-- It ends with the return. -/
  ret : ev n = .isrRet
  /-- Nothing between them ends it. -/
  inside : ∀ j, m < j → j < n → ev j ≠ .isrRet ∧ ev j ≠ .por

/-- R247's conclusions (1) to (5) on a run, from event `k` on. -/
structure GateWave (L : Nat) (ev : Nat → Instr) (st : Nat → State) (k : Nat) : Prop where
  /-- (1) The gate toggles infinitely often. -/
  toggles : ∀ n, ∃ m, n ≤ m ∧ ev m = .isrToggle ∧ (st (m + 1)).gate = !(st m).gate
  /-- Every entry begins an activation that ends, so that (2) and (4) speak of every entry. -/
  returns : ∀ m, k ≤ m → ev m = .isrEnter → ∃ n, IsActivation ev m n
  /-- (2) Every activation toggles the gate exactly once. -/
  togglesOnce : ∀ m n, k ≤ m → IsActivation ev m n →
    (eventsBetween ev m n).count .isrToggle = 1 ∧ (st (n + 1)).gate = !(st m).gate
  /-- (3) Consecutive entries are between `P` and `P + L` ticks apart, `P` at the earlier of the two. -/
  distance : ∀ m n, k ≤ m → m < n → ev m = .isrEnter → ev n = .isrEnter → NoServiceBetween ev m n →
    ticks (st m).activePeriod ≤ ticksBetween ev m n ∧ ticksBetween ev m n ≤ ticks (st m).activePeriod + L
  /-- (4) `RST_OUT` goes up and down once in each activation that opens the gate, and in no other; it is low
  at both ends, goes up at each `ISR.RSTHI` and down at each `ISR.RSTLO`, and changes nowhere else. -/
  pulses : ∀ m n, k ≤ m → IsActivation ev m n →
    (eventsBetween ev m n).count .isrRsthi = (if (st m).gate then 0 else 1) ∧
    (eventsBetween ev m n).count .isrRstlo = (if (st m).gate then 0 else 1) ∧
    (st m).rstOut = false ∧ (st (n + 1)).rstOut = false
  /-- (4), the edges of `RST_OUT`. -/
  edges : ∀ j, k ≤ j →
    ((st j).rstOut = false ∧ (st (j + 1)).rstOut = true ↔ ev j = .isrRsthi) ∧
    ((st j).rstOut = true ∧ (st (j + 1)).rstOut = false ↔ ev j = .isrRstlo)
  /-- (5) At an entry `P` is `10 * q` if the latest `POLL` was `POLL 0`, and `q` if it was `POLL 1` or there was
  none since `INIT`. -/
  period : ∀ j m, k ≤ j → j < m → ev m = .isrEnter → (∀ i, j < i → i < m → ∀ b, ev i ≠ .poll b) →
    (ev j = .poll false → ticks (st m).activePeriod = 10 * ticks (st m).basePeriod) ∧
    (ev j = .poll true ∨ ev j = .init → ticks (st m).activePeriod = ticks (st m).basePeriod)

end Sys2Proof.Machine
end

