-- ==== Sys2Proof/Certificates/Slice0/Obligations.lean ====
section
/-! DEFINITION. The statements for the provers, each with the rule of `spec/` it follows. -/

open Sys2Proof Sys2Proof.Machine

/-! ## Event words -/

/-- R90: the eleven words written out bit by bit, and the operations they stand for. -/
def Obligations.SpecWordsDecode : Prop :=
  decodeWord 0b00000000 = .ok .por ∧ decodeWord 0b00010000 = .ok .init ∧ decodeWord 0b00100000 = .ok .tick ∧
  decodeWord 0b00110000 = .ok (.poll false) ∧ decodeWord 0b00110001 = .ok (.poll true) ∧
  decodeWord 0b01000000 = .ok .isrEnter ∧ decodeWord 0b01010000 = .ok .isrToggle ∧
  decodeWord 0b01100000 = .ok .isrRsthi ∧ decodeWord 0b01110000 = .ok .isrNop ∧
  decodeWord 0b10000000 = .ok .isrRstlo ∧ decodeWord 0b10010000 = .ok .isrRet

/-- R91: exactly eleven of the 256 bytes are words, and a trace that goes on with another byte is refused. -/
def Obligations.DecoderAcceptsElevenWords : Prop :=
  (∀ w : Byte, (∃ i, decodeWord w = .ok i) ↔
    w ∈ [0x00#8, 0x10#8, 0x20#8, 0x30#8, 0x31#8, 0x40#8, 0x50#8, 0x60#8, 0x70#8, 0x80#8, 0x90#8]) ∧
  (List.range 256).countP (fun n => !(decodeWord (BitVec.ofNat 8 n)).isOk) = 245 ∧
  ∀ (s : State) (w : Byte) (rest : List Byte), s.trace = w :: rest →
    w ∉ [0x00#8, 0x10#8, 0x20#8, 0x30#8, 0x31#8, 0x40#8, 0x50#8, 0x60#8, 0x70#8, 0x80#8, 0x90#8] →
    ∃ why, step s = .refused (.invalidWord why)

/-- R94: the three checks in their order, on the bits of the byte, and the operation of R90 otherwise, whose
length is one byte and whose encoding is the byte. -/
def Obligations.DecodeChecksInOrder : Prop :=
  ∀ w : Byte,
    (w.toNat / 2 % 8 ≠ 0 → decodeWord w = .error .zeroField) ∧
    (w.toNat / 2 % 8 = 0 → 9 < w.toNat / 16 → decodeWord w = .error .opCode) ∧
    (w.toNat / 2 % 8 = 0 → w.toNat / 16 ≤ 9 → w.toNat % 2 = 1 → w.toNat / 16 ≠ 3 →
      decodeWord w = .error .operandBit) ∧
    (w.toNat / 2 % 8 = 0 → w.toNat / 16 ≤ 9 → (w.toNat % 2 = 0 ∨ w.toNat / 16 = 3) →
      ∃ i, [Instr.por, .init, .tick, .poll (decide (w.toNat % 2 = 1)), .isrEnter, .isrToggle, .isrRsthi, .isrNop,
          .isrRstlo, .isrRet][w.toNat / 16]? = some i ∧
        decodeWord w = .ok i ∧ encodeWord i = w ∧ ∀ rest, decode (w :: rest) = .ok (i, rest))

/-- R87, R94: on any sequence of bytes, decoding and encoding undo each other, one byte an operation. -/
def Obligations.StreamDecodeEncodeAgree : Prop :=
  (∀ (i : Instr) (rest : List Byte), i.wellFormed = true → decode (encode i ++ rest) = .ok (i, rest)) ∧
  (∀ (bytes : List Byte) (i : Instr) (rest : List Byte), decode bytes = .ok (i, rest) →
    bytes = encode i ++ rest)

/-- R96, R90 (the spec's decision D29; what it leaves open is log 6): the eleven events, each spelt as its
mnemonic in capitals with the operand of `POLL` after it, are read as those events, and no other words are. -/
def Obligations.EventTextReadsBack : Prop :=
  itemOfWords [['P', 'O', 'R']] = some (.event (.event .por)) ∧
  itemOfWords [['I', 'N', 'I', 'T']] = some (.event (.event .init)) ∧
  itemOfWords [['T', 'I', 'C', 'K']] = some (.event (.event .tick)) ∧
  itemOfWords [['P', 'O', 'L', 'L'], ['0']] = some (.event (.event (.poll false))) ∧
  itemOfWords [['P', 'O', 'L', 'L'], ['1']] = some (.event (.event (.poll true))) ∧
  itemOfWords [['I', 'S', 'R', '.', 'E', 'N', 'T', 'E', 'R']] = some (.event (.event .isrEnter)) ∧
  itemOfWords [['I', 'S', 'R', '.', 'T', 'O', 'G', 'G', 'L', 'E']] = some (.event (.event .isrToggle)) ∧
  itemOfWords [['I', 'S', 'R', '.', 'R', 'S', 'T', 'H', 'I']] = some (.event (.event .isrRsthi)) ∧
  itemOfWords [['I', 'S', 'R', '.', 'N', 'O', 'P']] = some (.event (.event .isrNop)) ∧
  itemOfWords [['I', 'S', 'R', '.', 'R', 'S', 'T', 'L', 'O']] = some (.event (.event .isrRstlo)) ∧
  itemOfWords [['I', 'S', 'R', '.', 'R', 'E', 'T']] = some (.event (.event .isrRet)) ∧
  ∀ (ws : List Text) (i : Instr), itemOfWords ws = some (.event (.event i)) →
    ws ∈ [[['P', 'O', 'R']], [['I', 'N', 'I', 'T']], [['T', 'I', 'C', 'K']], [['P', 'O', 'L', 'L'], ['0']],
      [['P', 'O', 'L', 'L'], ['1']], [['I', 'S', 'R', '.', 'E', 'N', 'T', 'E', 'R']],
      [['I', 'S', 'R', '.', 'T', 'O', 'G', 'G', 'L', 'E']], [['I', 'S', 'R', '.', 'R', 'S', 'T', 'H', 'I']],
      [['I', 'S', 'R', '.', 'N', 'O', 'P']], [['I', 'S', 'R', '.', 'R', 'S', 'T', 'L', 'O']],
      [['I', 'S', 'R', '.', 'R', 'E', 'T']]]

/-! ## Steps -/

/-- A step runs the decoded operation (R13, R94): it moves past the word and performs the operation. That a
trace stands in the state is the model's choice (log 3). -/
def Obligations.StepRunsDecodedOperation : Prop :=
  (∀ (s : State) (w : Byte) (rest : List Byte) (i : Instr), s.trace = w :: rest → decodeWord w = .ok i →
    i.wellFormed = true → step s = exec i { s with trace := rest }) ∧
  (∀ (s : State) (i : Instr), i.wellFormed = true →
    step (s.withFetchWord 8 (encodeWord i).toNat) = exec i s)

/-- THE MODEL'S CHOICE (log 4), after R213: with no trace left a step always answers a next state, that of an
operation which is enabled. -/
def Obligations.StepWithoutTraceNeverStops : Prop :=
  ∀ s : State, s.trace = [] →
    ∃ i t, enabled i s = true ∧ exec i { s with draws := s.draws + 1 } = .next t ∧ step s = .next t

/-- R213 (the trace in the state is the model's choice, log 3): a step stops only at the model's boundary, on a
byte that is no word or on an operation not enabled. -/
def Obligations.StepRefusesOnlyAtBoundary : Prop :=
  ∀ (s : State) (r : Refusal), step s = .refused r →
    ∃ w rest, s.trace = w :: rest ∧
      ((∃ e, decodeWord w = .error e ∧ r = .invalidWord e) ∨
        ∃ i, decodeWord w = .ok i ∧ r = .notEnabled i ∧ ∀ t, exec i s ≠ .next t)

/-! ## Enabling -/

/-- R95's table: each operation answers a next state exactly under its condition; that a `POLL` gives way to a
pending interrupt is the spec's decision D22. And R95's own inference, which the spec marks as derived from the
table: in `RUN` exactly one main-loop or handler operation can be performed (a `POLL` of either level, or one
`ISR.*`), in `BOOT` and `HALT` none. -/
def Obligations.OperationCompletesExactlyWhenEnabled : Prop :=
  ∀ s : State,
    ((∃ t, exec .por s = .next t) ∧
      ((∃ t, exec .init s = .next t) ↔ s.mode = .boot) ∧
      (∃ t, exec .tick s = .next t) ∧
      (∀ b, (∃ t, exec (.poll b) s = .next t) ↔
        s.mode = .run ∧ s.seq = .main ∧ ¬(s.tif = true ∧ s.tie = true)) ∧
      ((∃ t, exec .isrEnter s = .next t) ↔ s.mode = .run ∧ s.seq = .main ∧ s.tif = true ∧ s.tie = true) ∧
      ((∃ t, exec .isrToggle s = .next t) ↔ s.mode = .run ∧ s.seq = .sToggle) ∧
      ((∃ t, exec .isrRsthi s = .next t) ↔ s.mode = .run ∧ s.seq = .sRsthi) ∧
      ((∃ t, exec .isrNop s = .next t) ↔ s.mode = .run ∧ s.seq = .sDelay ∧ 0 < s.nopCnt) ∧
      ((∃ t, exec .isrRstlo s = .next t) ↔ s.mode = .run ∧ s.seq = .sDelay ∧ s.nopCnt = 0) ∧
      ((∃ t, exec .isrRet s = .next t) ↔ s.mode = .run ∧ s.seq = .sRet)) ∧
    (s.mode = .run → ∃ i, (isHandlerStep i = true ∨ i = .poll false) ∧ (∃ t, exec i s = .next t) ∧
      ∀ j, (isHandlerStep j = true ∨ j = .poll false) → (∃ t, exec j s = .next t) → j = i) ∧
    (s.mode ≠ .run → ∀ j t, (isHandlerStep j = true ∨ ∃ b, j = .poll b) → exec j s ≠ .next t)

/-- R12, R93: an operation that is not enabled is not a step and not a fault; the model refuses it by name. -/
def Obligations.DisabledOperationRefused : Prop :=
  ∀ (i : Instr) (s : State), (∀ t, exec i s ≠ .next t) ↔ exec i s = .refused (.notEnabled i)

/-- R204 (b), R163: a pending interrupt goes before a poll; one that came during the handler is taken right
after the return. -/
def Obligations.PendingInterruptGoesFirst : Prop :=
  ∀ s : State, s.mode = .run → s.tif = true → s.tie = true →
    (s.seq = .main → (∀ b, exec (.poll b) s = .refused (.notEnabled (.poll b))) ∧
      exec .isrEnter s = .next { s with tif := false, tmr := s.activePeriod, seq := .sToggle }) ∧
    (s.seq = .sRet → ∃ t, exec .isrRet s = .next t ∧ t.tif = true ∧
      exec .isrEnter t = .next { s with tif := false, tmr := s.activePeriod, seq := .sToggle })

/-! ## The result of each operation -/

/-- R231: `POR`, with the spec's decisions D15, D16. The three unwritten registers hold values this statement
says nothing of. THE MODEL'S CHOICE are two clauses: that the trace stands in the state and a `POR` leaves it
(log 3), and the last one, in which "nothing survives" reads: two states of one launch, trace and draw counter
give one and the same state, whatever their registers held (log 1). -/
def Obligations.PorWritesResetValues : Prop :=
  encodeWord .por = 0x00#8 ∧
  (∀ s : State, ∃ t, exec .por s = .next t ∧
    t.mode = .boot ∧ t.seq = .main ∧ t.tif = false ∧ t.tie = false ∧ t.gate = s.launch.gateReset ∧
    t.rstOut = false ∧ t.ind = false ∧ t.nopCnt = 0 ∧ t.cfgCause = 0 ∧ t.tmr = s.launch.tmrReset ∧
    t.launch = s.launch ∧ t.trace = s.trace) ∧
  ∀ s u : State, s.launch = u.launch → s.trace = u.trace → s.draws = u.draws → exec .por s = exec .por u

/-- R111, R112: a successful `INIT` makes exactly the six writes. -/
def Obligations.InitLegalWritesSix : Prop :=
  encodeWord .init = 0x10#8 ∧
  ∀ (s : State) (raw q : Nat) (period : Byte) (ps : BitVec 3), s.mode = .boot →
    pcalc s.launch.refHz.toNat s.launch.fsHz.toNat s.launch.presc.toNat = .valid raw q period ps →
    exec .init s = .next { s with
      basePeriod := period, activePeriod := period, psSel := ps, cfgCause := 0, tie := true, mode := .run }

/-- R116, R196: a failed `INIT` writes the cause and `HALT`, nothing else. -/
def Obligations.InitFaultHalts : Prop :=
  ∀ (s : State) (c : Cause), s.mode = .boot →
    pcalc s.launch.refHz.toNat s.launch.fsHz.toNat s.launch.presc.toNat = .invalid c →
    exec .init s = .next { s with cfgCause := causeCode c, mode := .halt }

/-- R141: `TICK`, in every state. -/
def Obligations.TickCountsAndFlags : Prop :=
  encodeWord .tick = 0x20#8 ∧
  ∀ s : State, exec .tick s = .next { s with
    tif := if s.tmr = 0xFF#8 then true else s.tif
    tmr := BitVec.ofNat 8 ((s.tmr.toNat + 1) % 256) }

/-- R181: `POLL b`. -/
def Obligations.PollSelectsRange : Prop :=
  encodeWord (.poll false) = 0x30#8 ∧ encodeWord (.poll true) = 0x31#8 ∧
  (∀ s : State, s.mode = .run → s.seq = .main → ¬(s.tif = true ∧ s.tie = true) →
    exec (.poll false) s = .next { s with
      activePeriod := BitVec.ofNat 8 (10 * s.basePeriod.toNat % 256), ind := true } ∧
    exec (.poll true) s = .next { s with activePeriod := s.basePeriod, ind := false }) ∧
  (∀ (s : State) (b : Bool), ¬(s.mode = .run ∧ s.seq = .main ∧ ¬(s.tif = true ∧ s.tie = true)) →
    exec (.poll b) s = .refused (.notEnabled (.poll b)))

/-- R156: `ISR.ENTER`. -/
def Obligations.IsrEnterReloadsTimer : Prop :=
  encodeWord .isrEnter = 0x40#8 ∧
  (∀ s : State, s.mode = .run → s.seq = .main → s.tif = true → s.tie = true →
    exec .isrEnter s = .next { s with tif := false, tmr := s.activePeriod, seq := .sToggle }) ∧
  (∀ s : State, ¬(s.mode = .run ∧ s.seq = .main ∧ s.tif = true ∧ s.tie = true) →
    exec .isrEnter s = .refused (.notEnabled .isrEnter))

/-- R158: `ISR.TOGGLE`; and nothing else writes `GATE` but a `POR`, so the pin read back is what they wrote. -/
def Obligations.IsrToggleFlipsGate : Prop :=
  encodeWord .isrToggle = 0x50#8 ∧
  (∀ s : State, s.mode = .run → s.seq = .sToggle →
    (s.gate = false → exec .isrToggle s = .next { s with gate := true, seq := .sRsthi }) ∧
    (s.gate = true → exec .isrToggle s = .next { s with gate := false, seq := .sRet })) ∧
  (∀ s : State, ¬(s.mode = .run ∧ s.seq = .sToggle) →
    exec .isrToggle s = .refused (.notEnabled .isrToggle)) ∧
  (∀ i s t, exec i s = .next t → i ≠ .isrToggle → i ≠ .por → t.gate = s.gate)

/-- R160: `ISR.RSTHI`. -/
def Obligations.IsrRsthiRaisesReset : Prop :=
  encodeWord .isrRsthi = 0x60#8 ∧
  (∀ s : State, s.mode = .run → s.seq = .sRsthi →
    exec .isrRsthi s = .next { s with rstOut := true, nopCnt := s.launch.rstPulseNops, seq := .sDelay }) ∧
  (∀ s : State, ¬(s.mode = .run ∧ s.seq = .sRsthi) → exec .isrRsthi s = .refused (.notEnabled .isrRsthi))

/-- R161: `ISR.NOP`. -/
def Obligations.IsrNopCountsDown : Prop :=
  encodeWord .isrNop = 0x70#8 ∧
  (∀ s : State, s.mode = .run → s.seq = .sDelay → 0 < s.nopCnt →
    exec .isrNop s = .next { s with nopCnt := s.nopCnt - 1 }) ∧
  (∀ s : State, ¬(s.mode = .run ∧ s.seq = .sDelay ∧ 0 < s.nopCnt) →
    exec .isrNop s = .refused (.notEnabled .isrNop))

/-- R162: `ISR.RSTLO`. -/
def Obligations.IsrRstloLowersReset : Prop :=
  encodeWord .isrRstlo = 0x80#8 ∧
  (∀ s : State, s.mode = .run → s.seq = .sDelay → s.nopCnt = 0 →
    exec .isrRstlo s = .next { s with rstOut := false, seq := .sRet }) ∧
  (∀ s : State, ¬(s.mode = .run ∧ s.seq = .sDelay ∧ s.nopCnt = 0) →
    exec .isrRstlo s = .refused (.notEnabled .isrRstlo))

/-- R163: `ISR.RET`; a pending expiry is left alone, and `ISR.ENTER` is enabled again at once. -/
def Obligations.IsrRetReturnsToMain : Prop :=
  encodeWord .isrRet = 0x90#8 ∧
  (∀ s : State, s.mode = .run → s.seq = .sRet → exec .isrRet s = .next { s with seq := .main }) ∧
  (∀ s : State, ¬(s.mode = .run ∧ s.seq = .sRet) → exec .isrRet s = .refused (.notEnabled .isrRet)) ∧
  (∀ s : State, s.mode = .run → s.seq = .sRet → s.tif = true → s.tie = true →
    ∃ t u, exec .isrRet s = .next t ∧ t.tif = true ∧ exec .isrEnter t = .next u)

/-! ## Frames -/

/-- The frame of every operation but `POR`, which writes all thirteen registers: the registers not named are
unchanged (R21, R111, R141, R156 to R163, R181). The last clause is THE MODEL'S CHOICE of fields and no rule of
the operations: the launch stands in the state (log 2; that no operation writes it is R20), the trace (log 3) and
the draw counter (log 1, log 4) stand in it too, and an operation leaves them alone. -/
def Obligations.OperationFrames : Prop :=
  (∀ s t r, exec .init s = .next t →
    r ∉ [Reg.mode, .basePeriod, .activePeriod, .psSel, .tie, .cfgCause] → readReg r t = readReg r s) ∧
  (∀ s t r, exec .tick s = .next t → r ∉ [Reg.tmr, .tif] → readReg r t = readReg r s) ∧
  (∀ s t r b, exec (.poll b) s = .next t → r ∉ [Reg.activePeriod, .ind] → readReg r t = readReg r s) ∧
  (∀ s t r, exec .isrEnter s = .next t → r ∉ [Reg.tif, .tmr, .seq] → readReg r t = readReg r s) ∧
  (∀ s t r, exec .isrToggle s = .next t → r ∉ [Reg.gate, .seq] → readReg r t = readReg r s) ∧
  (∀ s t r, exec .isrRsthi s = .next t → r ∉ [Reg.rstOut, .nopCnt, .seq] → readReg r t = readReg r s) ∧
  (∀ s t r, exec .isrNop s = .next t → r ∉ [Reg.nopCnt] → readReg r t = readReg r s) ∧
  (∀ s t r, exec .isrRstlo s = .next t → r ∉ [Reg.rstOut, .seq] → readReg r t = readReg r s) ∧
  (∀ s t r, exec .isrRet s = .next t → r ∉ [Reg.seq] → readReg r t = readReg r s) ∧
  (∀ i s t, exec i s = .next t → t.launch = s.launch ∧ t.trace = s.trace ∧ (i ≠ .por → t.draws = s.draws))

/-- R168 and R21's "written by", besides `POR`: who changes each register. -/
def Obligations.EachRegisterHasItsWriters : Prop :=
  ∀ (i : Instr) (s t : State), exec i s = .next t → i ≠ .por →
    (t.gate ≠ s.gate → i = .isrToggle) ∧
    (t.rstOut ≠ s.rstOut → i = .isrRsthi ∨ i = .isrRstlo) ∧
    (t.tmr ≠ s.tmr → i = .tick ∨ i = .isrEnter) ∧
    (s.tif = true → t.tif = false → i = .isrEnter) ∧
    (s.tif = false → t.tif = true → i = .tick) ∧
    (t.activePeriod ≠ s.activePeriod → i = .init ∨ ∃ b, i = .poll b) ∧
    (t.ind ≠ s.ind → ∃ b, i = .poll b) ∧
    (t.seq ≠ s.seq → isHandlerStep i = true ∧ i ≠ .isrNop) ∧
    (t.nopCnt ≠ s.nopCnt → i = .isrRsthi ∨ i = .isrNop) ∧
    (t.mode ≠ s.mode ∨ t.tie ≠ s.tie ∨ t.basePeriod ≠ s.basePeriod ∨ t.psSel ≠ s.psSel ∨
      t.cfgCause ≠ s.cfgCause → i = .init)

/-! ## The Period Calculator -/

/-- R113, R115, R197: the conditions in their order, the first that holds deciding, with the codes of R197. -/
def Obligations.PcalcFirstFailingLineDecides : Prop :=
  (causeCode .refIllegal = 1 ∧ causeCode .rawNonintegral = 2 ∧ causeCode .prescUnsupported = 3 ∧
    causeCode .notDivisible = 4 ∧ causeCode .quotientRange = 5) ∧
  ∀ ref fs p : Nat,
    let t3 := ref / 1000000 / 4 * 2048000
    let raw := t3 / (fs / 1000)
    pcalc ref fs p =
      if ref < 4000000 ∨ ref % 1000000 ≠ 0 then .invalid .refIllegal
      else if ref / 1000000 % 4 ≠ 0 ∨ fs % 1000 ≠ 0 ∨ fs / 1000 = 0 ∨ t3 % (fs / 1000) ≠ 0 then
        .invalid .rawNonintegral
      else if p ∉ [2, 4, 8, 16, 32, 64, 128, 256] then .invalid .prescUnsupported
      else if raw % p ≠ 0 then .invalid .notDivisible
      else if raw / p > 25 then .invalid .quotientRange
      else .valid raw (raw / p) (BitVec.ofNat 8 (256 - raw / p)) (BitVec.ofNat 3 (Nat.log2 p - 1))

/-- R117: `pcalc` accepts exactly the legal configurations, and what it then returns. -/
def Obligations.PcalcAcceptsExactlyLegal : Prop :=
  ∀ ref fs p : Nat,
    ((∃ raw q period ps, pcalc ref fs p = .valid raw q period ps) ↔ Legal ref fs p) ∧
    ∀ raw q period ps, pcalc ref fs p = .valid raw q period ps →
      raw = ref / 4000000 * 2048000 / (fs / 1000) ∧ 1 ≤ q ∧ q ≤ 25 ∧ q * p = raw ∧
      period.toNat = 256 - q ∧ 0xE7 ≤ period.toNat ∧ ps.toNat = Nat.log2 p - 1

/-- R118: for a legal configuration `raw = 512 * ref / fs` and `q = 512 * ref / (fs * p)` exactly; for one
that is not legal the closed form may be whole and `pcalc` invalid. -/
def Obligations.RawHasClosedForm : Prop :=
  (∀ ref fs p raw q period ps, pcalc ref fs p = .valid raw q period ps →
    raw * fs = 512 * ref ∧ raw = 512 * ref / fs ∧ q * (fs * p) = 512 * ref ∧ q = 512 * ref / (fs * p)) ∧
  ∃ ref fs p, 512 * ref % (fs * p) = 0 ∧ 0 < fs * p ∧ ∃ c, pcalc ref fs p = .invalid c

/-- R114: no intermediate overflows 32 bits, so the 32-bit calculator computes what the exact one does. -/
def Obligations.ThirtyTwoBitCalculatorAgrees : Prop :=
  (∀ ref : Nat, ref < 2 ^ 32 → 4000000 ≤ ref → ref / 1000000 ≤ 4294 ∧ ref / 1000000 / 4 ≤ 1073 ∧
    65535 < ref / 1000000 / 4 * 2048000 ∧ ref / 1000000 / 4 * 2048000 ≤ 2197504000) ∧
  2197504000 < 2 ^ 32 ∧
  (∀ ref fs p raw q period ps, pcalc ref fs p = .valid raw q period ps →
    raw ≤ ref / 1000000 / 4 * 2048000 ∧ q ≤ raw) ∧
  ∀ ref fs p : Word32, pcalc32 ref fs p = pcalc ref.toNat fs.toNat p.toNat

/-- R120, R81: for a legal prescaler the division is the shift by its `PS_SEL` code plus one; the mapping is
total over the eight values and one to one. -/
def Obligations.PrescalerDivisionIsShift : Prop :=
  (∀ p : Nat, (∃ ps, prescCode p = some ps) ↔ p ∈ [2, 4, 8, 16, 32, 64, 128, 256]) ∧
  (∀ p p' ps, prescCode p = some ps → prescCode p' = some ps → p = p') ∧
  ∀ (raw p : Nat) (ps : BitVec 3), prescCode p = some ps →
    p = 2 ^ (ps.toNat + 1) ∧ raw / p = raw >>> (ps.toNat + 1) ∧ raw % p = raw &&& (2 ^ (ps.toNat + 1) - 1)

/-- R121: where the block's reading accepts, the exact rational and the truncating reading accept with the
same quotient; and the three examples on which they differ. The two other readings are the model's DEDUCED
definitions (log 5). -/
def Obligations.ReadingsAgreeWhereAccepted : Prop :=
  (∀ ref fs p raw q period ps, pcalc ref fs p = .valid raw q period ps →
    quotientRational ref fs p = some q ∧ quotientTruncating ref fs p = some q ∧ disputed ref fs p = false) ∧
  (pcalc 6000000 3200000 64 = .invalid .rawNonintegral ∧ quotientRational 6000000 3200000 64 = some 15 ∧
    quotientTruncating 6000000 3200000 64 = some 10) ∧
  (pcalc 12500000 6400000 64 = .invalid .refIllegal ∧ quotientRational 12500000 6400000 64 = none ∧
    quotientTruncating 12500000 6400000 64 = some 15) ∧
  (pcalc 12000000 6400500 64 = .invalid .rawNonintegral ∧ quotientRational 12000000 6400500 64 = none ∧
    quotientTruncating 12000000 6400500 64 = some 15)

/-- R119: after `INIT`, a legal configuration has `ticks(BASE_PERIOD) * PRESC = raw`; one that is not legal
is halted with the interrupt off, in every later state until a `POR`. The premise `TIE = 0` is R42's, for `BOOT`. -/
def Obligations.InitSeparatesLegalFromIllegal : Prop :=
  ∀ s : State, s.mode = .boot → s.tie = false →
    (LegalLaunch s.launch → ∃ t, exec .init s = .next t ∧ t.mode = .run ∧ t.tie = true ∧
      ticks t.basePeriod * s.launch.presc.toNat = rawOf s.launch.refHz.toNat s.launch.fsHz.toNat) ∧
    (¬LegalLaunch s.launch → ∃ t, exec .init s = .next t ∧ t.mode = .halt ∧ t.tie = false ∧
      ∀ es u, Instr.por ∉ es → runEvents es t = .next u → u.mode = .halt ∧ u.tie = false)

/-! ## Bytes and ticks -/

/-- R82: the base byte of `q` times `q` ticks, and the extended byte of a legal `q` times ten times `q`. -/
def Obligations.ReloadBytesTimeTheirTicks : Prop :=
  (∀ q : Nat, 1 ≤ q → q ≤ 255 → ticks (neg8 q) = q) ∧
  (∀ q : Nat, 1 ≤ q → q ≤ 25 → extendedByte (neg8 q) = neg8 (10 * q % 256) ∧
    (extendedByte (neg8 q)).toNat = 256 - 10 * q ∧ ticks (extendedByte (neg8 q)) = 10 * q)

/-- R142: while no `ISR.ENTER` and no `POR` writes `TMR`, the next expiry is the `ticks(v)`-th tick: the tick
after `es` finds `0xFF` exactly when it is that one (or 256, 512, ... later). -/
def Obligations.NextExpiryIsTicksAway : Prop :=
  (∀ (s u : State) (es : List Instr), Instr.isrEnter ∉ es → Instr.por ∉ es → runEvents es s = .next u →
    (u.tmr = 0xFF#8 ↔ (ticksIn es + 1) % 256 = ticks s.tmr % 256)) ∧
  (∀ n : Nat, 1 ≤ n → n ≤ 255 → ticks (neg8 n) = n) ∧ ticks 0x00#8 = 256

/-- R142, R240: the whole effect of time on the timer between two services: the count, and one pending bit
however many expiries there were. -/
def Obligations.TimerAndFlagAfterTicks : Prop :=
  ∀ (s u : State) (es : List Instr), Instr.isrEnter ∉ es → Instr.por ∉ es → runEvents es s = .next u →
    u.tmr.toNat = (s.tmr.toNat + ticksIn es) % 256 ∧
    (u.tif = true ↔ s.tif = true ∨ ticks s.tmr ≤ ticksIn es)

/-- R146: a `TICK` and a `POLL` commute, but a `TICK` that sets `TIF` disables the `POLL`; a `TICK` and an
`ISR.ENTER` do not commute. -/
def Obligations.TickCommutesWithPoll : Prop :=
  (∀ (s a c : State) (b : Bool), exec .tick s = .next a → exec (.poll b) s = .next c →
    (s.tmr ≠ 0xFF#8 ∨ s.tie = false → ∃ d, exec (.poll b) a = .next d ∧ exec .tick c = .next d) ∧
    (s.tmr = 0xFF#8 → s.tie = true → exec (.poll b) a = .refused (.notEnabled (.poll b)))) ∧
  ∃ s a c d e : State, exec .tick s = .next a ∧ exec .isrEnter a = .next d ∧
    exec .isrEnter s = .next c ∧ exec .tick c = .next e ∧ d ≠ e

/-! ## The shared cell -/

/-- R67, R184: the handler loads the value of the latest `POLL` before it, or of `INIT` if there was none. -/
def Obligations.HandlerLoadsLatestWrite : Prop :=
  ∀ (s a u w : State) (es : List Instr), Instr.por ∉ es → (∀ b, Instr.poll b ∉ es) →
    runEvents es a = .next u → exec .isrEnter u = .next w →
    (∀ b, exec (.poll b) s = .next a → w.tmr = rangeByte (!b) s.basePeriod) ∧
    (exec .init s = .next a → w.tmr = a.basePeriod)

/-- R182: whatever happens in between, a `POLL 1` restores the exact base value and a `POLL 0` the product of
the base: no drift. -/
def Obligations.RangeChangeNeverDrifts : Prop :=
  ∀ (s t u : State) (es : List Instr), s.mode = .run → Instr.por ∉ es → runEvents es s = .next t →
    (exec (.poll true) t = .next u → u.activePeriod = s.basePeriod ∧ u.basePeriod = s.basePeriod) ∧
    (exec (.poll false) t = .next u →
      u.activePeriod.toNat = 10 * s.basePeriod.toNat % 256 ∧ u.basePeriod = s.basePeriod)

/-- R183: in `RUN` the base times `q` ticks, `1 <= q <= 25`, and the cell `q` ticks after `INIT` or `POLL 1`
and ten times `q` after `POLL 0`; the indicator says which; from `q = 13` on the byte reads positive if signed. -/
def Obligations.ExtendedPeriodIsTenfold : Prop :=
  ∀ s : State, StateInv s → s.mode = .run →
    1 ≤ ticks s.basePeriod ∧ ticks s.basePeriod ≤ 25 ∧
    (s.ind = false → ticks s.activePeriod = ticks s.basePeriod) ∧
    (s.ind = true → ticks s.activePeriod = 10 * ticks s.basePeriod) ∧
    (∀ t, exec (.poll true) s = .next t → ticks t.activePeriod = ticks s.basePeriod) ∧
    (∀ t, exec (.poll false) s = .next t → ticks t.activePeriod = 10 * ticks s.basePeriod) ∧
    (∀ r, StateInv r → exec .init r = .next s → ticks s.activePeriod = ticks s.basePeriod) ∧
    (13 ≤ ticks s.basePeriod → 0 < sint8 (extendedByte s.basePeriod))

/-! ## The handler -/

/-- R155's table: between an `ISR.ENTER` and the `ISR.RET` after it, leaving out `TICK`s, stand exactly the
steps of a Closed → Open or of an Open → Closed activation. -/
def Obligations.ActivationHasItsSteps : Prop :=
  ∀ (s a b c : State) (es : List Instr), exec .isrEnter s = .next a → runEvents es a = .next b →
    exec .isrRet b = .next c → Instr.por ∉ es → Instr.isrRet ∉ es →
    es.filter (fun i => i ≠ .tick) =
      if s.gate then [.isrToggle]
      else [.isrToggle, .isrRsthi] ++ List.replicate s.launch.rstPulseNops .isrNop ++ [.isrRstlo]

/-- R164: the net effect of an activation with any ticks inside it: the timer counts on from the value
loaded, the flag says whether it overflowed, the gate is complemented, the pulse is over. -/
def Obligations.ActivationNetEffect : Prop :=
  ∀ (s a b c : State) (es : List Instr), exec .isrEnter s = .next a → runEvents es a = .next b →
    exec .isrRet b = .next c → Instr.por ∉ es → Instr.isrRet ∉ es →
    c = { s with
      tif := decide (ticks s.activePeriod ≤ ticksIn es)
      tmr := s.activePeriod + BitVec.ofNat 8 (ticksIn es)
      gate := !s.gate
      rstOut := if s.gate then s.rstOut else false
      nopCnt := if s.gate then s.nopCnt else 0
      seq := .main }

/-- R164: from a pending interrupt the whole handler can run with no tick inside, and in the states between
`ISR.RSTHI` and `ISR.RSTLO`, `RST_PULSE_NOPS + 1` of them, the reset pin is high. -/
def Obligations.HandlerRunsToCompletion : Prop :=
  ∀ s : State, s.mode = .run → s.seq = .main → s.tif = true → s.tie = true → s.rstOut = false → s.nopCnt = 0 →
    runEvents (handlerEvents s.launch.rstPulseNops s.gate) s =
      .next { s with tif := false, tmr := s.activePeriod, gate := !s.gate } ∧
    (s.gate = false → ∀ k, k ≤ s.launch.rstPulseNops →
      runEvents ([.isrEnter, .isrToggle, .isrRsthi] ++ List.replicate k .isrNop) s =
        .next { s with tif := false, tmr := s.activePeriod, gate := true, rstOut := true,
                       nopCnt := s.launch.rstPulseNops - k, seq := .sDelay })

/-- R159: the gate toggles exactly once between two consecutive interrupt entries. -/
def Obligations.GateTogglesOncePerActivation : Prop :=
  ∀ (s a b c : State) (es : List Instr), exec .isrEnter s = .next a → runEvents es a = .next b →
    exec .isrEnter b = .next c → Instr.isrEnter ∉ es → Instr.por ∉ es →
    es.count .isrToggle = 1 ∧ b.gate = !s.gate

/-- R166: a reset pulse is issued on, and only on, each Closed → Open transition. -/
def Obligations.ResetPulseOnlyOnOpening : Prop :=
  (∀ i s t, exec i s = .next t → s.rstOut = false → t.rstOut = true → i = .isrRsthi) ∧
  (∀ (s u t : State) (es : List Instr), s.seq ≠ .sRsthi → runEvents es s = .next u →
    exec .isrRsthi u = .next t →
    ∃ before after v, es = before ++ .isrToggle :: after ∧ (∀ i ∈ after, i = .tick) ∧
      runEvents (before ++ [.isrToggle]) s = .next v ∧ v.gate = true) ∧
  (∀ (s a b c : State) (es : List Instr), exec .isrToggle s = .next a → runEvents es a = .next b →
    exec .isrRet b = .next c → Instr.por ∉ es → Instr.isrRet ∉ es →
    (a.gate = true → es.count .isrRsthi = 1 ∧ es.count .isrRstlo = 1) ∧
    (a.gate = false → es.count .isrRsthi = 0 ∧ es.count .isrRstlo = 0 ∧ c.rstOut = s.rstOut))

/-- R165: the ticks between two consecutive entries are the period loaded at the first and the latency of the
second, counted from the expiry it serves. -/
def Obligations.WindowLengthIsPeriodPlusLatency : Prop :=
  ∀ (s a u v w x : State) (es late : List Instr), exec .isrEnter s = .next a → runEvents es a = .next u →
    u.tif = false → exec .tick u = .next v → v.tif = true → runEvents late v = .next w →
    exec .isrEnter w = .next x → Instr.isrEnter ∉ es → Instr.por ∉ es → Instr.isrEnter ∉ late →
    Instr.por ∉ late →
    ticksIn (es ++ .tick :: late) = ticks s.activePeriod + ticksIn late

/-- R97, R165 with zero latency: from the main loop, `HALF n` with `n` the ticks the timer still has to go is a
run that flips the gate and starts the next half-period at the shared cell's value. -/
def Obligations.HalfPeriodFlipsGate : Prop :=
  ∀ s : State, s.mode = .run → s.seq = .main → s.tie = true → s.rstOut = false → s.nopCnt = 0 →
    runPseudo [.half (ticks s.tmr)] s =
      .next { s with tif := false, tmr := s.activePeriod, gate := !s.gate }

/-! ## Invariants -/

/-- Every state right after a `POR`, under every launch, meets the invariant; so does `State.reset`, whose
launch is the model's choice (log 2). -/
def Obligations.ResetMeetsInvariant : Prop :=
  (∀ (l : Launch) (tr : List Byte) (n : Nat), StateInv (State.resetWith l tr n)) ∧ StateInv State.reset

/-- Every step keeps the invariant, from every state that meets it, reachable or not. -/
def Obligations.StepKeepsInvariant : Prop :=
  ∀ s t : State, StateInv s → step s = .next t → StateInv t

/-- R42 (derived by the spec), all six lines, of every state reachable from a `POR` by a run. -/
def Obligations.ReachableStatesObeyInvariants : Prop :=
  ∀ s : State, Reachable s →
    (s.mode = .run ↔ s.tie = true) ∧
    (s.mode = .run → ∃ q, 1 ≤ q ∧ q ≤ 25 ∧ s.basePeriod = neg8 q ∧
      (s.activePeriod = s.basePeriod ∨ s.activePeriod.toNat = 10 * s.basePeriod.toNat % 256) ∧
      (ticks s.activePeriod = q ∨ ticks s.activePeriod = 10 * q) ∧
      1 ≤ ticks s.activePeriod ∧ ticks s.activePeriod ≤ 250) ∧
    (s.rstOut = true → s.seq = .sDelay ∧ s.gate = true) ∧
    (s.mode = .boot ∨ s.mode = .halt →
      s.seq = .main ∧ s.gate = s.launch.gateReset ∧ s.rstOut = false ∧ s.ind = false) ∧
    (s.mode = .halt → 1 ≤ s.cfgCause.toNat ∧ s.cfgCause.toNat ≤ 5) ∧
    (s.mode = .run → s.cfgCause = 0)

/-- R27: `SEQ` differs from `MAIN` only while `MODE = RUN`; `MODE` changes only by `INIT` from `BOOT` and by `POR`. -/
def Obligations.ModeChangesOnlyByInitAndPor : Prop :=
  (∀ s : State, Reachable s → s.seq ≠ .main → s.mode = .run) ∧
  (∀ (i : Instr) (s t : State), exec i s = .next t → t.seq ≠ s.seq → isHandlerStep i = true ∨ i = .por) ∧
  (∀ (i : Instr) (s t : State), exec i s = .next t → t.mode ≠ s.mode →
    (i = .init ∧ s.mode = .boot ∧ (t.mode = .run ∨ t.mode = .halt)) ∨ (i = .por ∧ t.mode = .boot))

/-- R37, R21: the no-op counter of a reachable state is at most `RST_PULSE_NOPS`, and 0 outside the delay. -/
def Obligations.NopCountIsBounded : Prop :=
  ∀ s : State, Reachable s →
    s.nopCnt ≤ s.launch.rstPulseNops ∧ (s.seq ≠ .sDelay → s.nopCnt = 0)

/-- R199: in `HALT` only `TICK` moves the block, until a `POR`, and it moves only `TMR` and `TIF`. -/
def Obligations.HaltIsPermanent : Prop :=
  ∀ (s t : State) (es : List Instr), s.mode = .halt → Instr.por ∉ es → runEvents es s = .next t →
    (∀ i ∈ es, i = .tick) ∧ t = { s with tmr := t.tmr, tif := t.tif }

/-- R199, R247: under a configuration that is not legal no reachable state has a pin off its reset level, and
the block never runs. -/
def Obligations.IllegalConfigurationNeverDrivesPins : Prop :=
  ∀ s : State, Reachable s → ¬LegalLaunch s.launch →
    s.mode ≠ .run ∧ s.tie = false ∧ s.gate = s.launch.gateReset ∧ s.rstOut = false ∧ s.ind = false

/-- R8, R20: along every run the launch constants never change (that they stand in the state is log 2). -/
def Obligations.LaunchNeverChanges : Prop :=
  (∀ s t : State, step s = .next t → t.launch = s.launch) ∧
  ∀ ev st, IsRun ev st → ∀ n, (st n).launch = (st 0).launch

/-! ## Infinite runs -/

/-- R247 (3): under `FITS` and `LAT(L)`, the distance in ticks of two consecutive entries is between the
period loaded at the earlier and that period plus `L`. -/
def Obligations.EntryDistanceWithinLatency : Prop :=
  ∀ (L : Nat) (ev : Nat → Instr) (st : Nat → State) (m n : Nat), IsRun ev st → Fits ev st → Lat L ev st →
    m < n → ev m = .isrEnter → ev n = .isrEnter → NoServiceBetween ev m n →
    ticks (st m).activePeriod ≤ ticksBetween ev m n ∧
    ticksBetween ev m n ≤ ticks (st m).activePeriod + L

/-- R247 (1): for a legal configuration, under `FAIR`, with no `POR` from event `k` on, the gate toggles
infinitely often. -/
def Obligations.GateTogglesInfinitelyOften : Prop :=
  ∀ (ev : Nat → Instr) (st : Nat → State) (k : Nat), IsRun ev st → Fair ev st →
    LegalLaunch (st 0).launch → (∀ n, k ≤ n → ev n ≠ .por) →
    ∀ n, ∃ m, n ≤ m ∧ ev m = .isrToggle ∧ (st (m + 1)).gate = !(st m).gate

/-- R247 (1) to (5) (derived by the spec): for a legal configuration, in every run that meets `FAIR`, `FITS` and
`LAT(L)`, from an `INIT` after which there is no `POR` on. -/
def Obligations.PremisesGiveTheGateWave : Prop :=
  ∀ (L : Nat) (ev : Nat → Instr) (st : Nat → State) (k : Nat), IsRun ev st → Fair ev st → Fits ev st →
    Lat L ev st → LegalLaunch (st 0).launch → ev k = .init → (∀ n, k ≤ n → ev n ≠ .por) → GateWave L ev st k

/-- R247, last sentence (derived by the spec): in every run with a configuration that is not legal the three
pins never change after the `POR`, a later `POR` or not. -/
def Obligations.IllegalRunNeverMovesPins : Prop :=
  ∀ (ev : Nat → Instr) (st : Nat → State), IsRun ev st → ¬LegalLaunch (st 0).launch →
    ∀ n, (st n).gate = (st 0).launch.gateReset ∧ (st n).rstOut = false ∧ (st n).ind = false ∧
      (st n).gate = (st 0).gate ∧ (st n).rstOut = (st 0).rstOut ∧ (st n).ind = (st 0).ind
end

