-- ==== Sys2Proof/Laws/State.lean ====
section
/-! SUPPORT. One lemma per field per named operation, true by `rfl`: later proofs unfold no record update. -/

namespace Sys2Proof.Machine

open Sys2Proof

variable (s : State)

@[simp] theorem raiseConfigFault_mode (c : Cause) : (raiseConfigFault c s).mode = .halt := rfl
@[simp] theorem raiseConfigFault_seq (c : Cause) : (raiseConfigFault c s).seq = s.seq := rfl
@[simp] theorem raiseConfigFault_basePeriod (c : Cause) : (raiseConfigFault c s).basePeriod = s.basePeriod := rfl
@[simp] theorem raiseConfigFault_activePeriod (c : Cause) : (raiseConfigFault c s).activePeriod = s.activePeriod := rfl
@[simp] theorem raiseConfigFault_psSel (c : Cause) : (raiseConfigFault c s).psSel = s.psSel := rfl
@[simp] theorem raiseConfigFault_tmr (c : Cause) : (raiseConfigFault c s).tmr = s.tmr := rfl
@[simp] theorem raiseConfigFault_tif (c : Cause) : (raiseConfigFault c s).tif = s.tif := rfl
@[simp] theorem raiseConfigFault_tie (c : Cause) : (raiseConfigFault c s).tie = s.tie := rfl
@[simp] theorem raiseConfigFault_gate (c : Cause) : (raiseConfigFault c s).gate = s.gate := rfl
@[simp] theorem raiseConfigFault_rstOut (c : Cause) : (raiseConfigFault c s).rstOut = s.rstOut := rfl
@[simp] theorem raiseConfigFault_ind (c : Cause) : (raiseConfigFault c s).ind = s.ind := rfl
@[simp] theorem raiseConfigFault_nopCnt (c : Cause) : (raiseConfigFault c s).nopCnt = s.nopCnt := rfl
@[simp] theorem raiseConfigFault_cfgCause (c : Cause) : (raiseConfigFault c s).cfgCause = causeCode c := rfl
@[simp] theorem raiseConfigFault_launch (c : Cause) : (raiseConfigFault c s).launch = s.launch := rfl
@[simp] theorem raiseConfigFault_trace (c : Cause) : (raiseConfigFault c s).trace = s.trace := rfl
@[simp] theorem raiseConfigFault_draws (c : Cause) : (raiseConfigFault c s).draws = s.draws := rfl

@[simp] theorem takeInterrupt_mode : (takeInterrupt s).mode = s.mode := rfl
@[simp] theorem takeInterrupt_seq : (takeInterrupt s).seq = .sToggle := rfl
@[simp] theorem takeInterrupt_basePeriod : (takeInterrupt s).basePeriod = s.basePeriod := rfl
@[simp] theorem takeInterrupt_activePeriod : (takeInterrupt s).activePeriod = s.activePeriod := rfl
@[simp] theorem takeInterrupt_psSel : (takeInterrupt s).psSel = s.psSel := rfl
@[simp] theorem takeInterrupt_tmr : (takeInterrupt s).tmr = s.activePeriod := rfl
@[simp] theorem takeInterrupt_tif : (takeInterrupt s).tif = false := rfl
@[simp] theorem takeInterrupt_tie : (takeInterrupt s).tie = s.tie := rfl
@[simp] theorem takeInterrupt_gate : (takeInterrupt s).gate = s.gate := rfl
@[simp] theorem takeInterrupt_rstOut : (takeInterrupt s).rstOut = s.rstOut := rfl
@[simp] theorem takeInterrupt_ind : (takeInterrupt s).ind = s.ind := rfl
@[simp] theorem takeInterrupt_nopCnt : (takeInterrupt s).nopCnt = s.nopCnt := rfl
@[simp] theorem takeInterrupt_cfgCause : (takeInterrupt s).cfgCause = s.cfgCause := rfl
@[simp] theorem takeInterrupt_launch : (takeInterrupt s).launch = s.launch := rfl
@[simp] theorem takeInterrupt_trace : (takeInterrupt s).trace = s.trace := rfl
@[simp] theorem takeInterrupt_draws : (takeInterrupt s).draws = s.draws := rfl

@[simp] theorem returnFromInterrupt_mode : (returnFromInterrupt s).mode = s.mode := rfl
@[simp] theorem returnFromInterrupt_seq : (returnFromInterrupt s).seq = .main := rfl
@[simp] theorem returnFromInterrupt_basePeriod : (returnFromInterrupt s).basePeriod = s.basePeriod := rfl
@[simp] theorem returnFromInterrupt_activePeriod : (returnFromInterrupt s).activePeriod = s.activePeriod := rfl
@[simp] theorem returnFromInterrupt_psSel : (returnFromInterrupt s).psSel = s.psSel := rfl
@[simp] theorem returnFromInterrupt_tmr : (returnFromInterrupt s).tmr = s.tmr := rfl
@[simp] theorem returnFromInterrupt_tif : (returnFromInterrupt s).tif = s.tif := rfl
@[simp] theorem returnFromInterrupt_tie : (returnFromInterrupt s).tie = s.tie := rfl
@[simp] theorem returnFromInterrupt_gate : (returnFromInterrupt s).gate = s.gate := rfl
@[simp] theorem returnFromInterrupt_rstOut : (returnFromInterrupt s).rstOut = s.rstOut := rfl
@[simp] theorem returnFromInterrupt_ind : (returnFromInterrupt s).ind = s.ind := rfl
@[simp] theorem returnFromInterrupt_nopCnt : (returnFromInterrupt s).nopCnt = s.nopCnt := rfl
@[simp] theorem returnFromInterrupt_cfgCause : (returnFromInterrupt s).cfgCause = s.cfgCause := rfl
@[simp] theorem returnFromInterrupt_launch : (returnFromInterrupt s).launch = s.launch := rfl
@[simp] theorem returnFromInterrupt_trace : (returnFromInterrupt s).trace = s.trace := rfl
@[simp] theorem returnFromInterrupt_draws : (returnFromInterrupt s).draws = s.draws := rfl

@[simp] theorem powerOnReset_mode : (powerOnReset s).mode = .boot := rfl
@[simp] theorem powerOnReset_seq : (powerOnReset s).seq = .main := rfl
@[simp] theorem powerOnReset_basePeriod : (powerOnReset s).basePeriod = Config.unwrittenBasePeriod s.draws := rfl
@[simp] theorem powerOnReset_activePeriod : (powerOnReset s).activePeriod = Config.unwrittenActivePeriod s.draws := rfl
@[simp] theorem powerOnReset_psSel : (powerOnReset s).psSel = Config.unwrittenPsSel s.draws := rfl
@[simp] theorem powerOnReset_tmr : (powerOnReset s).tmr = s.launch.tmrReset := rfl
@[simp] theorem powerOnReset_tif : (powerOnReset s).tif = false := rfl
@[simp] theorem powerOnReset_tie : (powerOnReset s).tie = false := rfl
@[simp] theorem powerOnReset_gate : (powerOnReset s).gate = s.launch.gateReset := rfl
@[simp] theorem powerOnReset_rstOut : (powerOnReset s).rstOut = false := rfl
@[simp] theorem powerOnReset_ind : (powerOnReset s).ind = false := rfl
@[simp] theorem powerOnReset_nopCnt : (powerOnReset s).nopCnt = 0 := rfl
@[simp] theorem powerOnReset_cfgCause : (powerOnReset s).cfgCause = 0 := rfl
@[simp] theorem powerOnReset_launch : (powerOnReset s).launch = s.launch := rfl
@[simp] theorem powerOnReset_trace : (powerOnReset s).trace = s.trace := rfl
@[simp] theorem powerOnReset_draws : (powerOnReset s).draws = s.draws + 1 := rfl

@[simp] theorem startRunning_mode (p : Byte) (k : BitVec 3) : (startRunning p k s).mode = .run := rfl
@[simp] theorem startRunning_seq (p : Byte) (k : BitVec 3) : (startRunning p k s).seq = s.seq := rfl
@[simp] theorem startRunning_basePeriod (p : Byte) (k : BitVec 3) : (startRunning p k s).basePeriod = p := rfl
@[simp] theorem startRunning_activePeriod (p : Byte) (k : BitVec 3) : (startRunning p k s).activePeriod = p := rfl
@[simp] theorem startRunning_psSel (p : Byte) (k : BitVec 3) : (startRunning p k s).psSel = k := rfl
@[simp] theorem startRunning_tmr (p : Byte) (k : BitVec 3) : (startRunning p k s).tmr = s.tmr := rfl
@[simp] theorem startRunning_tif (p : Byte) (k : BitVec 3) : (startRunning p k s).tif = s.tif := rfl
@[simp] theorem startRunning_tie (p : Byte) (k : BitVec 3) : (startRunning p k s).tie = true := rfl
@[simp] theorem startRunning_gate (p : Byte) (k : BitVec 3) : (startRunning p k s).gate = s.gate := rfl
@[simp] theorem startRunning_rstOut (p : Byte) (k : BitVec 3) : (startRunning p k s).rstOut = s.rstOut := rfl
@[simp] theorem startRunning_ind (p : Byte) (k : BitVec 3) : (startRunning p k s).ind = s.ind := rfl
@[simp] theorem startRunning_nopCnt (p : Byte) (k : BitVec 3) : (startRunning p k s).nopCnt = s.nopCnt := rfl
@[simp] theorem startRunning_cfgCause (p : Byte) (k : BitVec 3) : (startRunning p k s).cfgCause = 0 := rfl
@[simp] theorem startRunning_launch (p : Byte) (k : BitVec 3) : (startRunning p k s).launch = s.launch := rfl
@[simp] theorem startRunning_trace (p : Byte) (k : BitVec 3) : (startRunning p k s).trace = s.trace := rfl
@[simp] theorem startRunning_draws (p : Byte) (k : BitVec 3) : (startRunning p k s).draws = s.draws := rfl

@[simp] theorem countTimer_mode : (countTimer s).mode = s.mode := rfl
@[simp] theorem countTimer_seq : (countTimer s).seq = s.seq := rfl
@[simp] theorem countTimer_basePeriod : (countTimer s).basePeriod = s.basePeriod := rfl
@[simp] theorem countTimer_activePeriod : (countTimer s).activePeriod = s.activePeriod := rfl
@[simp] theorem countTimer_psSel : (countTimer s).psSel = s.psSel := rfl
@[simp] theorem countTimer_tmr : (countTimer s).tmr = s.tmr + 1#8 := rfl
@[simp] theorem countTimer_tif : (countTimer s).tif = tifAfterTick s.tmr s.tif := rfl
@[simp] theorem countTimer_tie : (countTimer s).tie = s.tie := rfl
@[simp] theorem countTimer_gate : (countTimer s).gate = s.gate := rfl
@[simp] theorem countTimer_rstOut : (countTimer s).rstOut = s.rstOut := rfl
@[simp] theorem countTimer_ind : (countTimer s).ind = s.ind := rfl
@[simp] theorem countTimer_nopCnt : (countTimer s).nopCnt = s.nopCnt := rfl
@[simp] theorem countTimer_cfgCause : (countTimer s).cfgCause = s.cfgCause := rfl
@[simp] theorem countTimer_launch : (countTimer s).launch = s.launch := rfl
@[simp] theorem countTimer_trace : (countTimer s).trace = s.trace := rfl
@[simp] theorem countTimer_draws : (countTimer s).draws = s.draws := rfl

@[simp] theorem selectRange_mode (x : Bool) : (selectRange x s).mode = s.mode := rfl
@[simp] theorem selectRange_seq (x : Bool) : (selectRange x s).seq = s.seq := rfl
@[simp] theorem selectRange_basePeriod (x : Bool) : (selectRange x s).basePeriod = s.basePeriod := rfl
@[simp] theorem selectRange_activePeriod (x : Bool) : (selectRange x s).activePeriod = rangeByte x s.basePeriod := rfl
@[simp] theorem selectRange_psSel (x : Bool) : (selectRange x s).psSel = s.psSel := rfl
@[simp] theorem selectRange_tmr (x : Bool) : (selectRange x s).tmr = s.tmr := rfl
@[simp] theorem selectRange_tif (x : Bool) : (selectRange x s).tif = s.tif := rfl
@[simp] theorem selectRange_tie (x : Bool) : (selectRange x s).tie = s.tie := rfl
@[simp] theorem selectRange_gate (x : Bool) : (selectRange x s).gate = s.gate := rfl
@[simp] theorem selectRange_rstOut (x : Bool) : (selectRange x s).rstOut = s.rstOut := rfl
@[simp] theorem selectRange_ind (x : Bool) : (selectRange x s).ind = x := rfl
@[simp] theorem selectRange_nopCnt (x : Bool) : (selectRange x s).nopCnt = s.nopCnt := rfl
@[simp] theorem selectRange_cfgCause (x : Bool) : (selectRange x s).cfgCause = s.cfgCause := rfl
@[simp] theorem selectRange_launch (x : Bool) : (selectRange x s).launch = s.launch := rfl
@[simp] theorem selectRange_trace (x : Bool) : (selectRange x s).trace = s.trace := rfl
@[simp] theorem selectRange_draws (x : Bool) : (selectRange x s).draws = s.draws := rfl

@[simp] theorem toggleGate_mode : (toggleGate s).mode = s.mode := rfl
@[simp] theorem toggleGate_seq : (toggleGate s).seq = (if s.gate then .sRet else .sRsthi) := rfl
@[simp] theorem toggleGate_basePeriod : (toggleGate s).basePeriod = s.basePeriod := rfl
@[simp] theorem toggleGate_activePeriod : (toggleGate s).activePeriod = s.activePeriod := rfl
@[simp] theorem toggleGate_psSel : (toggleGate s).psSel = s.psSel := rfl
@[simp] theorem toggleGate_tmr : (toggleGate s).tmr = s.tmr := rfl
@[simp] theorem toggleGate_tif : (toggleGate s).tif = s.tif := rfl
@[simp] theorem toggleGate_tie : (toggleGate s).tie = s.tie := rfl
@[simp] theorem toggleGate_gate : (toggleGate s).gate = (!s.gate) := rfl
@[simp] theorem toggleGate_rstOut : (toggleGate s).rstOut = s.rstOut := rfl
@[simp] theorem toggleGate_ind : (toggleGate s).ind = s.ind := rfl
@[simp] theorem toggleGate_nopCnt : (toggleGate s).nopCnt = s.nopCnt := rfl
@[simp] theorem toggleGate_cfgCause : (toggleGate s).cfgCause = s.cfgCause := rfl
@[simp] theorem toggleGate_launch : (toggleGate s).launch = s.launch := rfl
@[simp] theorem toggleGate_trace : (toggleGate s).trace = s.trace := rfl
@[simp] theorem toggleGate_draws : (toggleGate s).draws = s.draws := rfl

@[simp] theorem raiseReset_mode : (raiseReset s).mode = s.mode := rfl
@[simp] theorem raiseReset_seq : (raiseReset s).seq = .sDelay := rfl
@[simp] theorem raiseReset_basePeriod : (raiseReset s).basePeriod = s.basePeriod := rfl
@[simp] theorem raiseReset_activePeriod : (raiseReset s).activePeriod = s.activePeriod := rfl
@[simp] theorem raiseReset_psSel : (raiseReset s).psSel = s.psSel := rfl
@[simp] theorem raiseReset_tmr : (raiseReset s).tmr = s.tmr := rfl
@[simp] theorem raiseReset_tif : (raiseReset s).tif = s.tif := rfl
@[simp] theorem raiseReset_tie : (raiseReset s).tie = s.tie := rfl
@[simp] theorem raiseReset_gate : (raiseReset s).gate = s.gate := rfl
@[simp] theorem raiseReset_rstOut : (raiseReset s).rstOut = true := rfl
@[simp] theorem raiseReset_ind : (raiseReset s).ind = s.ind := rfl
@[simp] theorem raiseReset_nopCnt : (raiseReset s).nopCnt = s.launch.rstPulseNops := rfl
@[simp] theorem raiseReset_cfgCause : (raiseReset s).cfgCause = s.cfgCause := rfl
@[simp] theorem raiseReset_launch : (raiseReset s).launch = s.launch := rfl
@[simp] theorem raiseReset_trace : (raiseReset s).trace = s.trace := rfl
@[simp] theorem raiseReset_draws : (raiseReset s).draws = s.draws := rfl

@[simp] theorem delayNop_mode : (delayNop s).mode = s.mode := rfl
@[simp] theorem delayNop_seq : (delayNop s).seq = s.seq := rfl
@[simp] theorem delayNop_basePeriod : (delayNop s).basePeriod = s.basePeriod := rfl
@[simp] theorem delayNop_activePeriod : (delayNop s).activePeriod = s.activePeriod := rfl
@[simp] theorem delayNop_psSel : (delayNop s).psSel = s.psSel := rfl
@[simp] theorem delayNop_tmr : (delayNop s).tmr = s.tmr := rfl
@[simp] theorem delayNop_tif : (delayNop s).tif = s.tif := rfl
@[simp] theorem delayNop_tie : (delayNop s).tie = s.tie := rfl
@[simp] theorem delayNop_gate : (delayNop s).gate = s.gate := rfl
@[simp] theorem delayNop_rstOut : (delayNop s).rstOut = s.rstOut := rfl
@[simp] theorem delayNop_ind : (delayNop s).ind = s.ind := rfl
@[simp] theorem delayNop_nopCnt : (delayNop s).nopCnt = s.nopCnt - 1 := rfl
@[simp] theorem delayNop_cfgCause : (delayNop s).cfgCause = s.cfgCause := rfl
@[simp] theorem delayNop_launch : (delayNop s).launch = s.launch := rfl
@[simp] theorem delayNop_trace : (delayNop s).trace = s.trace := rfl
@[simp] theorem delayNop_draws : (delayNop s).draws = s.draws := rfl

@[simp] theorem lowerReset_mode : (lowerReset s).mode = s.mode := rfl
@[simp] theorem lowerReset_seq : (lowerReset s).seq = .sRet := rfl
@[simp] theorem lowerReset_basePeriod : (lowerReset s).basePeriod = s.basePeriod := rfl
@[simp] theorem lowerReset_activePeriod : (lowerReset s).activePeriod = s.activePeriod := rfl
@[simp] theorem lowerReset_psSel : (lowerReset s).psSel = s.psSel := rfl
@[simp] theorem lowerReset_tmr : (lowerReset s).tmr = s.tmr := rfl
@[simp] theorem lowerReset_tif : (lowerReset s).tif = s.tif := rfl
@[simp] theorem lowerReset_tie : (lowerReset s).tie = s.tie := rfl
@[simp] theorem lowerReset_gate : (lowerReset s).gate = s.gate := rfl
@[simp] theorem lowerReset_rstOut : (lowerReset s).rstOut = false := rfl
@[simp] theorem lowerReset_ind : (lowerReset s).ind = s.ind := rfl
@[simp] theorem lowerReset_nopCnt : (lowerReset s).nopCnt = s.nopCnt := rfl
@[simp] theorem lowerReset_cfgCause : (lowerReset s).cfgCause = s.cfgCause := rfl
@[simp] theorem lowerReset_launch : (lowerReset s).launch = s.launch := rfl
@[simp] theorem lowerReset_trace : (lowerReset s).trace = s.trace := rfl
@[simp] theorem lowerReset_draws : (lowerReset s).draws = s.draws := rfl

section

variable (l : Launch) (tr : List Byte) (n : Nat)

@[simp] theorem resetWith_mode : (State.resetWith l tr n).mode = .boot := rfl
@[simp] theorem resetWith_seq : (State.resetWith l tr n).seq = .main := rfl
@[simp] theorem resetWith_basePeriod : (State.resetWith l tr n).basePeriod = Config.unwrittenBasePeriod n := rfl
@[simp] theorem resetWith_activePeriod : (State.resetWith l tr n).activePeriod = Config.unwrittenActivePeriod n := rfl
@[simp] theorem resetWith_psSel : (State.resetWith l tr n).psSel = Config.unwrittenPsSel n := rfl
@[simp] theorem resetWith_tmr : (State.resetWith l tr n).tmr = l.tmrReset := rfl
@[simp] theorem resetWith_tif : (State.resetWith l tr n).tif = false := rfl
@[simp] theorem resetWith_tie : (State.resetWith l tr n).tie = false := rfl
@[simp] theorem resetWith_gate : (State.resetWith l tr n).gate = l.gateReset := rfl
@[simp] theorem resetWith_rstOut : (State.resetWith l tr n).rstOut = false := rfl
@[simp] theorem resetWith_ind : (State.resetWith l tr n).ind = false := rfl
@[simp] theorem resetWith_nopCnt : (State.resetWith l tr n).nopCnt = 0 := rfl
@[simp] theorem resetWith_cfgCause : (State.resetWith l tr n).cfgCause = 0 := rfl
@[simp] theorem resetWith_launch : (State.resetWith l tr n).launch = l := rfl
@[simp] theorem resetWith_trace : (State.resetWith l tr n).trace = tr := rfl
@[simp] theorem resetWith_draws : (State.resetWith l tr n).draws = n + 1 := rfl

end

/-- The state after a `POR` is a reset state of the same launch (R231). -/
theorem powerOnReset_eq_resetWith : powerOnReset s = State.resetWith s.launch s.trace s.draws := rfl

/-- `State.reset` is the state after a `POR` under the launch of log 2. -/
theorem reset_eq_resetWith : State.reset = State.resetWith Launch.programP1 [] 0 := rfl

end Sys2Proof.Machine
end

