-- ==== Sys2Proof/Laws/Exec.lean ====
section
/-! SUPPORT. Said once: what an operation, a fetch, a step and a finite trace can do. -/

namespace Sys2Proof.Machine

open Sys2Proof

/-- The writes of each operation, whether or not it is enabled: what its meaning performs. -/
def effect (i : Instr) (s : State) : State :=
  match i with
  | .por => powerOnReset s
  | .init => initialise s
  | .tick => countTimer s
  | .poll b => selectRange (extendedRequested b) s
  | .isrEnter => takeInterrupt s
  | .isrToggle => toggleGate s
  | .isrRsthi => raiseReset s
  | .isrNop => delayNop s
  | .isrRstlo => lowerReset s
  | .isrRet => returnFromInterrupt s

theorem perform_eq_next_iff {i : Instr} {e : Bool} {t u : State} :
    perform i e t = .next u ↔ e = true ∧ t = u := by
  cases e <;> simp [perform]

theorem perform_of_enabled (i : Instr) (t : State) : perform i true t = .next t := rfl

theorem perform_of_disabled (i : Instr) (t : State) : perform i false t = .refused (.notEnabled i) := rfl

/-- Every meaning is its enabling condition over its writes. -/
theorem exec_eq_perform (i : Instr) (s : State) : exec i s = perform i (enabled i s) (effect i s) := by
  cases i <;> rfl

/-- INVERSION: an operation that answers `t` was enabled, and `t` is what it writes. -/
theorem exec_eq_next_iff {i : Instr} {s t : State} :
    exec i s = .next t ↔ enabled i s = true ∧ effect i s = t := by
  rw [exec_eq_perform]; exact perform_eq_next_iff

/-- `INIT` writes either a successful calculation or the fault. -/
theorem initialise_of_valid {s : State} {raw q : Nat} {p : Byte} {k : BitVec 3}
    (h : pcalcLaunch s.launch = .valid raw q p k) : initialise s = startRunning p k s := by
  simp [initialise, h]

theorem initialise_of_invalid {s : State} {c : Cause} (h : pcalcLaunch s.launch = .invalid c) :
    initialise s = raiseConfigFault c s := by
  simp [initialise, h]

/-- No operation writes the launch (R8, R20). -/
@[simp] theorem effect_launch (i : Instr) (s : State) : (effect i s).launch = s.launch := by
  cases i <;> simp only [effect, powerOnReset_launch, countTimer_launch, selectRange_launch, takeInterrupt_launch,
    toggleGate_launch, raiseReset_launch, delayNop_launch, lowerReset_launch, returnFromInterrupt_launch]
  unfold initialise; split <;> rfl

/-- No operation writes the model's trace. -/
@[simp] theorem effect_trace (i : Instr) (s : State) : (effect i s).trace = s.trace := by
  cases i <;> simp only [effect, powerOnReset_trace, countTimer_trace, selectRange_trace, takeInterrupt_trace,
    toggleGate_trace, raiseReset_trace, delayNop_trace, lowerReset_trace, returnFromInterrupt_trace]
  unfold initialise; split <;> rfl

/-- A fetch from a trace takes its first byte and leaves the registers alone. -/
theorem fetch_cons (s : State) (w : Byte) (rest : List Byte) (h : s.trace = w :: rest) :
    fetch s = match decodeWord w with
      | .ok i => .ok (i, { s with trace := rest })
      | .error e => .error (.invalidWord e) := by
  unfold fetch
  rw [h]
  simp only [decode]
  cases decodeWord w <;> rfl

/-- With no trace left, the fetch is a free choice. -/
theorem fetch_nil (s : State) (h : s.trace = []) :
    fetch s = .ok (freeChoice s, { s with draws := s.draws + 1 }) := by
  unfold fetch; rw [h]

/-- A free choice is always enabled. -/
theorem freeChoice_enabled (s : State) : enabled (freeChoice s) s = true := by
  unfold freeChoice
  split
  · split
    · assumption
    · rfl
  · rfl

/-- Enabling reads no field of the model's own. -/
@[simp] theorem enabled_withTrace (i : Instr) (s : State) (tr : List Byte) :
    enabled i { s with trace := tr } = enabled i s := by
  cases i <;> rfl

@[simp] theorem enabled_withDraws (i : Instr) (s : State) (n : Nat) :
    enabled i { s with draws := n } = enabled i s := by
  cases i <;> rfl

/-- INVERSION of a step: it performed one operation, on the state with only `trace` and `draws` moved. -/
theorem step_eq_next {s t : State} (h : step s = .next t) :
    ∃ i tr n, exec i { s with trace := tr, draws := n } = .next t := by
  unfold step at h
  cases hf : fetch s with
  | error r => rw [hf] at h; cases h
  | ok p =>
    obtain ⟨i, s'⟩ := p
    rw [hf] at h
    refine ⟨i, s'.trace, s'.draws, ?_⟩
    cases ht : s.trace with
    | nil =>
      rw [fetch_nil s ht] at hf
      cases hf; exact h
    | cons w rest =>
      rw [fetch_cons s w rest ht] at hf
      cases hd : decodeWord w with
      | ok j => rw [hd] at hf; cases hf; exact h
      | error e => rw [hd] at hf; cases hf

@[simp] theorem runEvents_nil (s : State) : runEvents [] s = .next s := rfl

/-- INVERSION of a trace's first event. -/
theorem runEvents_cons_eq_next {i : Instr} {is : List Instr} {s u : State} :
    runEvents (i :: is) s = .next u ↔ ∃ t, exec i s = .next t ∧ runEvents is t = .next u := by
  rw [runEvents]
  cases exec i s <;> simp

/-- A trace in two parts is performed one part after the other. -/
theorem runEvents_append_eq_next {as bs : List Instr} {s u : State} :
    runEvents (as ++ bs) s = .next u ↔ ∃ t, runEvents as s = .next t ∧ runEvents bs t = .next u := by
  induction as generalizing s with
  | nil => simp
  | cons a as ih =>
    simp only [List.cons_append, runEvents_cons_eq_next, ih]
    constructor
    · rintro ⟨v, hv, t, ht, hu⟩; exact ⟨t, ⟨v, hv, ht⟩, hu⟩
    · rintro ⟨t, ⟨v, hv, ht⟩, hu⟩; exact ⟨v, hv, t, ht, hu⟩

@[simp] theorem ticksIn_nil : ticksIn [] = 0 := rfl

theorem ticksIn_cons (i : Instr) (is : List Instr) :
    ticksIn (i :: is) = ticksIn is + if i = .tick then 1 else 0 := by
  simp [ticksIn, List.count_cons]

theorem ticksIn_append (as bs : List Instr) : ticksIn (as ++ bs) = ticksIn as + ticksIn bs := by
  simp [ticksIn]

end Sys2Proof.Machine
end

