-- ==== Sys2Proof/Laws/PerInstr.lean ====
section
/-! SUPPORT. One family of facts about the operations as syntax, one lemma per constructor. -/

namespace Sys2Proof.Laws

open Sys2Proof

/-- The word of an operation is well formed (R88, R91), and so is the operation. -/
def EncodedWord.Statement (i : Instr) : Prop :=
  i.wellFormed = true ∧ (eventFields (encodeWord i)).wellFormed = true

theorem EncodedWord.por : EncodedWord.Statement .por := ⟨rfl, by decide⟩
theorem EncodedWord.init : EncodedWord.Statement .init := ⟨rfl, by decide⟩
theorem EncodedWord.tick : EncodedWord.Statement .tick := ⟨rfl, by decide⟩
theorem EncodedWord.poll (b : Bool) : EncodedWord.Statement (.poll b) := by
  cases b <;> exact ⟨rfl, by decide⟩
theorem EncodedWord.isrEnter : EncodedWord.Statement .isrEnter := ⟨rfl, by decide⟩
theorem EncodedWord.isrToggle : EncodedWord.Statement .isrToggle := ⟨rfl, by decide⟩
theorem EncodedWord.isrRsthi : EncodedWord.Statement .isrRsthi := ⟨rfl, by decide⟩
theorem EncodedWord.isrNop : EncodedWord.Statement .isrNop := ⟨rfl, by decide⟩
theorem EncodedWord.isrRstlo : EncodedWord.Statement .isrRstlo := ⟨rfl, by decide⟩
theorem EncodedWord.isrRet : EncodedWord.Statement .isrRet := ⟨rfl, by decide⟩

end Sys2Proof.Laws
end

