-- ==== Sys2Proof/Tests/FairRun.lean ====
section
/-! SUPPORT. A concrete infinite run that meets `FAIR`, `FITS` and `LAT(0)`, whose entries follow an `INIT`, a
`POLL 0` and a `POLL 1`. It shows that the hypotheses of the statements about infinite runs can be met together. -/

namespace Sys2Proof.Tests.FairRun

open Sys2Proof Sys2Proof.Machine

/-- V8, the legal configuration with `q = 1`; no no-ops; the timer expires with the first tick. -/
def launch1 : Launch where
  refHz := 4000000
  fsHz := 1024000000
  presc := 2
  rstPulseNops := 0
  gateReset := false
  tmrReset := 0xFF

/-- The operation that cannot wait: `INIT`, or a step of the handler. -/
def urgent (s : State) : Option Instr :=
  [Instr.init, .isrEnter, .isrToggle, .isrRsthi, .isrNop, .isrRstlo, .isrRet].find? (fun i => enabled i s)

/-- What happens at event `n` otherwise: a tick at every fourth, else a poll, pressed while the gate is open. -/
def idle (n : Nat) (s : State) : Instr := if n % 4 = 1 then .tick else .poll (!s.gate)

/-- The event at number `n` in a state. The block is never halted here, so one of the two is enabled. -/
def turn (n : Nat) (s : State) : Instr :=
  (urgent s).getD (if enabled (idle n s) s then idle n s else .tick)

/-- The states of the run. -/
def st : Nat → State
  | 0 => State.resetWith launch1 [] 0
  | n + 1 => effect (turn n (st n)) (st n)

/-- The events of the run. -/
def ev (n : Nat) : Instr := turn n (st n)

theorem urgent_enabled {s : State} {i : Instr} (h : urgent s = some i) : enabled i s = true :=
  List.find?_some (p := fun i => enabled i s) h

theorem turn_of_urgent {s : State} {i : Instr} (n : Nat) (h : urgent s = some i) : turn n s = i := by
  simp [turn, h]

theorem turn_enabled (n : Nat) (s : State) : enabled (turn n s) s = true := by
  cases h : urgent s with
  | some i => rw [turn_of_urgent n h]; exact urgent_enabled h
  | none =>
    simp only [turn, h, Option.getD_none]
    split
    · assumption
    · rfl

theorem ev_steps (n : Nat) : exec (ev n) (st n) = .next (st (n + 1)) :=
  exec_eq_next_iff.2 ⟨turn_enabled n (st n), rfl⟩

/-- The run is a run. -/
theorem isRun : IsRun ev st := ⟨⟨launch1, [], 0, rfl⟩, ev_steps⟩

/-- A check of one cycle of states and events, one after the other from a known state. -/
def cycleOk (p : Nat → State → Bool) : Nat → Nat → State → Bool
  | 0, _, _ => true
  | k + 1, n, s => p n s && cycleOk p k (n + 1) (effect (turn n s) s)

theorem cycleOk_spec (p : Nat → State → Bool) (k : Nat) :
    ∀ n, cycleOk p k n (st n) = true → ∀ j, n ≤ j → j < n + k → p j (st j) = true := by
  induction k with
  | zero => intro n _ j h1 h2; omega
  | succ k ih =>
    intro n h j h1 h2
    simp only [cycleOk, Bool.and_eq_true] at h
    rcases Nat.eq_or_lt_of_le h1 with rfl | h1
    · exact h.1
    · exact ih (n + 1) h.2 j h1 (by omega)

/-- The state a number of events later. -/
def after : Nat → Nat → State → State
  | 0, _, s => s
  | k + 1, n, s => after k (n + 1) (effect (turn n s) s)

theorem after_spec (k : Nat) : ∀ n, after k n (st n) = st (n + k) := by
  induction k with
  | zero => intro n; rfl
  | succ k ih =>
    intro n
    have := ih (n + 1)
    rw [show n + (k + 1) = n + 1 + k by omega, ← this]
    rfl

/-- What the `INIT` at event 0 leaves. -/
def initialised : State :=
  { State.resetWith launch1 [] 0 with
    mode := .run, basePeriod := 0xFF, activePeriod := 0xFF, psSel := 0, tie := true }

theorem st_1 : st 1 = initialised := rfl

set_option maxRecDepth 8000 in
theorem cycle : after 48 1 initialised = initialised := by decide

theorem turn_period (n : Nat) (s : State) : turn (n + 48) s = turn n s := by
  unfold turn idle; rw [show (n + 48) % 4 = n % 4 by omega]

theorem st_period (n : Nat) (h : 1 ≤ n) : st (n + 48) = st n := by
  induction n, h using Nat.le_induction with
  | base => rw [← after_spec 48 1, st_1, cycle]
  | succ n h ih =>
    show effect (turn (n + 48) (st (n + 48))) (st (n + 48)) = effect (turn n (st n)) (st n)
    rw [ih, turn_period]

theorem ev_period (n : Nat) (h : 1 ≤ n) (k : Nat) : ev (n + 48 * k) = ev n := by
  induction k with
  | zero => rfl
  | succ k ih =>
    show turn (n + 48 * k + 48) (st (n + 48 * k + 48)) = _
    rw [st_period _ (by omega), turn_period]; exact ih

/-- A check that does not tell `n` from `n + 48` holds always if it holds in the first 49 states. -/
theorem always (p : Nat → State → Bool) (hp : ∀ n s, p (n + 48) s = p n s)
    (h0 : p 0 (st 0) = true) (h : cycleOk p 48 1 initialised = true) (n : Nat) : p n (st n) = true := by
  induction n using Nat.strong_induction_on with
  | _ n ih =>
    rcases Nat.eq_zero_or_pos n with rfl | hn
    · exact h0
    · by_cases hn' : n < 49
      · exact cycleOk_spec p 48 1 (by rw [st_1]; exact h) n hn (by omega)
      · have e : n = n - 48 + 48 := by omega
        rw [e, hp, st_period _ (by omega)]
        exact ih _ (by omega)

/-- Every expiry of the run falls in the main loop of a running block. -/
def expiryServed (n : Nat) (s : State) : Bool :=
  !(turn n s == .tick && s.tmr == 0xFF#8) || (s.seq == .main && s.mode == .run && s.tie)

set_option maxRecDepth 8000 in
theorem expiryServed_cycle : cycleOk expiryServed 48 1 initialised = true := by decide

theorem expiry_served (n : Nat) (h : ExpiryAt ev st n) :
    (st n).seq = .main ∧ (st n).mode = .run ∧ (st n).tie = true := by
  have hp := always expiryServed (fun n s => by unfold expiryServed; rw [turn_period]) rfl expiryServed_cycle n
  have h1 : turn n (st n) = .tick := h.1
  have h2 : (st n).tmr = 0xFF#8 := h.2
  simpa [expiryServed, h1, h2, and_assoc] using hp

/-- The run meets `FITS`. -/
theorem fits : Fits ev st := fun n h => (expiry_served n h).1

/-- A step of the handler that is enabled is the only urgent operation. -/
theorem urgent_of_handler (s : State) (i : Instr) (hi : isHandlerStep i = true) (he : enabled i s = true) :
    urgent s = some i := by
  cases i <;> simp [isHandlerStep] at hi <;>
    simp_all [urgent, enabled, initEnabled, isrEnterEnabled, isrToggleEnabled, isrRsthiEnabled, isrNopEnabled,
      isrRstloEnabled, isrRetEnabled]

theorem urgent_of_boot (s : State) (h : s.mode = .boot) : urgent s = some .init := by
  simp [urgent, enabled, initEnabled, h]

/-- The run meets `LAT(0)`: each entry comes right after the expiry it serves. -/
theorem lat : Lat 0 ev st := by
  intro m n hmn hx _ _ hn hno
  obtain ⟨hs, hm, ht⟩ := expiry_served m hx
  have hst : st (m + 1) = countTimer (st m) := by
    show effect (ev m) (st m) = _
    rw [hx.1]; rfl
  have he : ev (m + 1) = .isrEnter := by
    refine turn_of_urgent _ (urgent_of_handler _ _ rfl ?_)
    rw [hst]
    simp [enabled, isrEnterEnabled, interruptPending, hs, hm, ht, tifAfterTick, expires, hx.2]
  rcases Nat.eq_or_lt_of_le (show m + 1 ≤ n from hmn) with rfl | h
  · simp [ticksBetween, eventsBetween]
  · exact absurd he (hno (m + 1) (by omega) h).1

/-- The entries of a cycle, and no `POR`. -/
def entries (n : Nat) (s : State) : Bool :=
  ((turn n s == .isrEnter) == (n % 48 == 2 || n % 48 == 10)) && turn n s != .por

set_option maxRecDepth 8000 in
theorem entries_cycle : cycleOk entries 48 1 initialised = true := by decide

theorem entries_always (n : Nat) : entries n (st n) = true :=
  always entries (fun n s => by unfold entries; rw [turn_period, show (n + 48) % 48 = n % 48 by omega]) rfl
    entries_cycle n

theorem no_por (n : Nat) : ev n ≠ .por := by
  have := entries_always n
  simp only [entries, Bool.and_eq_true, bne_iff_ne] at this
  exact this.2

theorem enter_iff (n : Nat) : ev n = .isrEnter ↔ n % 48 = 2 ∨ n % 48 = 10 := by
  have := entries_always n
  simp only [entries, Bool.and_eq_true, beq_iff_eq] at this
  rw [← beq_iff_eq]
  exact iff_of_eq (congrArg (· = true) this.1) |>.trans (by simp)

theorem ev_0 : ev 0 = .init := rfl

theorem ev_1 : ev 1 = .tick := rfl

/-- The event at a number of the first cycle, computed from `initialised`. -/
theorem ev_eq (n : Nat) : ev (1 + n) = turn (1 + n) (after n 1 initialised) := by
  rw [← st_1, after_spec]; rfl

set_option maxRecDepth 8000 in
theorem ev_8 : ev 8 = .poll false := (ev_eq 7).trans (by decide)

set_option maxRecDepth 8000 in
theorem ev_9 : ev 9 = .tick := (ev_eq 8).trans (by decide)

set_option maxRecDepth 8000 in
theorem ev_12 : ev 12 = .isrRet := (ev_eq 11).trans (by decide)

set_option maxRecDepth 8000 in
theorem ev_48 : ev 48 = .poll true := (ev_eq 47).trans (by decide)

theorem ev_49 : ev 49 = .tick := (ev_period 1 (by omega) 1).trans ev_1

/-- The run meets `FAIR`. -/
theorem fair : Fair ev st where
  ticks n := ⟨1 + 48 * n, by omega, (ev_period 1 (by omega) n).trans ev_1⟩
  handler n i hi he := ⟨n, Nat.le_refl _, .inl (turn_of_urgent n (urgent_of_handler _ i hi he))⟩
  polls _ _ k := ⟨8 + 48 * k, by omega, false, (ev_period 8 (by omega) k).trans ev_8⟩
  boots n hm := ⟨n, Nat.le_refl _, turn_of_urgent n (urgent_of_boot _ hm)⟩

theorem legal_launch : LegalLaunch (st 0).launch :=
  ⟨by decide, by decide, by decide, by decide, by decide, by decide, by decide⟩

theorem noService (m n : Nat) (h : ∀ k, m < k → k < n → ¬(k % 48 = 2 ∨ k % 48 = 10)) : NoServiceBetween ev m n :=
  fun k h1 h2 => ⟨fun e => h k h1 h2 ((enter_iff k).1 e), no_por k⟩

/-- The hypotheses of `EntryDistanceWithinLatency` are met together, with `L = 0`. -/
theorem witness_EntryDistanceWithinLatency :
    IsRun ev st ∧ Fits ev st ∧ Lat 0 ev st ∧ 10 < 50 ∧ ev 10 = .isrEnter ∧ ev 50 = .isrEnter ∧
      NoServiceBetween ev 10 50 :=
  ⟨isRun, fits, lat, by decide, (enter_iff 10).2 (.inr rfl), (enter_iff 50).2 (.inl rfl),
    noService 10 50 (by omega)⟩

/-- The hypotheses of `GateTogglesInfinitelyOften` are met together. -/
theorem witness_GateTogglesInfinitelyOften :
    IsRun ev st ∧ Fair ev st ∧ LegalLaunch (st 0).launch ∧ ∀ n, 0 ≤ n → ev n ≠ .por :=
  ⟨isRun, fair, legal_launch, fun n _ => no_por n⟩

set_option maxRecDepth 8000 in
/-- Events 10 to 12 are an activation that closes the gate, events 2 to 6 one that opens it. -/
theorem activations : IsActivation ev 10 12 ∧ IsActivation ev 2 6 := by
  have e3 : ev 3 = .isrToggle := (ev_eq 2).trans (by decide)
  have e4 : ev 4 = .isrRsthi := (ev_eq 3).trans (by decide)
  have e5 : ev 5 = .isrRstlo := (ev_eq 4).trans (by decide)
  have e6 : ev 6 = .isrRet := (ev_eq 5).trans (by decide)
  have e11 : ev 11 = .isrToggle := (ev_eq 10).trans (by decide)
  refine ⟨⟨by decide, (enter_iff 10).2 (.inr rfl), ev_12, fun j h1 h2 => ?_⟩,
    ⟨by decide, (enter_iff 2).2 (.inl rfl), e6, fun j h1 h2 => ?_⟩⟩
  · obtain rfl : j = 11 := by omega
    simp [e11]
  · obtain rfl | rfl | rfl : j = 3 ∨ j = 4 ∨ j = 5 := by omega
    · simp [e3]
    · simp [e4]
    · simp [e5]

/-- The hypotheses of `PremisesGiveTheGateWave` are met together; and its conclusions speak of something: an
activation that closes the gate and one that opens it, two consecutive entries, and an entry after an `INIT`
(event 2), after a `POLL 0` (event 10) and after a `POLL 1` (event 50). -/
theorem witness_PremisesGiveTheGateWave :
    (IsRun ev st ∧ Fair ev st ∧ Fits ev st ∧ Lat 0 ev st ∧ LegalLaunch (st 0).launch ∧ ev 0 = .init ∧
      ∀ n, 0 ≤ n → ev n ≠ .por) ∧
    (IsActivation ev 10 12 ∧ IsActivation ev 2 6) ∧ NoServiceBetween ev 10 50 ∧
    (ev 0 = .init ∧ ev 2 = .isrEnter ∧ ∀ i, 0 < i → i < 2 → ∀ b, ev i ≠ .poll b) ∧
    (ev 8 = .poll false ∧ ev 10 = .isrEnter ∧ ∀ i, 8 < i → i < 10 → ∀ b, ev i ≠ .poll b) ∧
    (ev 48 = .poll true ∧ ev 50 = .isrEnter ∧ ∀ i, 48 < i → i < 50 → ∀ b, ev i ≠ .poll b) := by
  refine ⟨⟨isRun, fair, fits, lat, legal_launch, ev_0, fun n _ => no_por n⟩, activations,
    noService 10 50 (by omega), ⟨ev_0, (enter_iff 2).2 (.inl rfl), fun i h1 h2 b => ?_⟩,
    ⟨ev_8, (enter_iff 10).2 (.inr rfl), fun i h1 h2 b => ?_⟩,
    ⟨ev_48, (enter_iff 50).2 (.inl rfl), fun i h1 h2 b => ?_⟩⟩
  · obtain rfl : i = 1 := by omega
    simp [ev_1]
  · obtain rfl : i = 9 := by omega
    simp [ev_9]
  · obtain rfl : i = 49 := by omega
    simp [ev_49]

end Sys2Proof.Tests.FairRun
end

