-- ==== Sys2Proof/Tests/Slice0.lean ====
section
/-! SUPPORT. Tests whose expected results are the vectors of `95_test_vectors.md`, and for every obligation with
hypotheses a concrete instance that meets them. -/

namespace Sys2Proof.Tests

open Sys2Proof Sys2Proof.Machine

/-! ## Well-formedness: an ill-formed word for each check -/

/-- 0x32 has `zero` = 1 (section 7). -/
theorem test_wellFormed_zeroField :
    (eventFields 0x32).zeroClear = false ∧ (eventFields 0x32).wellFormed = false := by decide

/-- 0xA0 has `op` = 0xA (section 7). -/
theorem test_wellFormed_opCode :
    (eventFields 0xA0).opNamed = false ∧ (eventFields 0xA0).wellFormed = false := by decide

/-- 0x91 has `b` = 1 and is no `POLL` (section 7). -/
theorem test_wellFormed_operandBit :
    (eventFields 0x91).operandAllowed = false ∧ (eventFields 0x91).wellFormed = false := by decide

/-- A term written by hand and not read from a byte is refused too. -/
theorem test_wellFormed_term : (EventWord.mk 0xF 7 1).wellFormed = false := by decide

/-! ## Decoding: the words of section 7, bit by bit -/

theorem test_decode_por : decodeWord 0b00000000 = .ok .por := rfl
theorem test_decode_init : decodeWord 0b00010000 = .ok .init := rfl
theorem test_decode_tick : decodeWord 0b00100000 = .ok .tick := rfl
theorem test_decode_poll : decodeWord 0b00110000 = .ok (.poll false) ∧ decodeWord 0b00110001 = .ok (.poll true) :=
  ⟨rfl, rfl⟩
theorem test_decode_isrEnter : decodeWord 0b01000000 = .ok .isrEnter := rfl
theorem test_decode_isrToggle : decodeWord 0b01010000 = .ok .isrToggle := rfl
theorem test_decode_isrRsthi : decodeWord 0b01100000 = .ok .isrRsthi := rfl
theorem test_decode_isrNop : decodeWord 0b01110000 = .ok .isrNop := rfl
theorem test_decode_isrRstlo : decodeWord 0b10000000 = .ok .isrRstlo := rfl
theorem test_decode_isrRet : decodeWord 0b10010000 = .ok .isrRet := rfl

/-- The nine invalid words of section 7, each with the check that fails first. -/
theorem test_decode_invalid :
    decodeWord 0x01 = .error .operandBit ∧ decodeWord 0x21 = .error .operandBit ∧
    decodeWord 0x32 = .error .zeroField ∧ decodeWord 0x3F = .error .zeroField ∧
    decodeWord 0x48 = .error .zeroField ∧ decodeWord 0x91 = .error .operandBit ∧
    decodeWord 0xA0 = .error .opCode ∧ decodeWord 0xF0 = .error .opCode ∧
    decodeWord 0xFF = .error .zeroField ∧ decode [] = .error .noByte :=
  ⟨rfl, rfl, rfl, rfl, rfl, rfl, rfl, rfl, rfl, rfl⟩

/-- The encodings of R90. -/
theorem test_encode :
    [Instr.por, .init, .tick, .poll false, .poll true, .isrEnter, .isrToggle, .isrRsthi, .isrNop, .isrRstlo,
      .isrRet].map encodeWord =
    [0x00, 0x10, 0x20, 0x30, 0x31, 0x40, 0x50, 0x60, 0x70, 0x80, 0x90] := by decide

theorem test_decodeTableWord :
    decodeTableWord 8 0x31 = some (.poll true) ∧ decodeTableWord 8 0x90 = some .isrRet ∧
      decodeTableWord 8 0xA0 = none := by decide

/-- The word placed is the one the very next step runs. -/
theorem test_withFetchWord :
    step (State.reset.withFetchWord 8 0x10) = exec .init State.reset := rfl

/-! ## States to test on -/

/-- A state that runs Scenario A in the main loop: what `INIT` leaves in program P1. -/
def running : State where
  mode := .run
  seq := .main
  basePeriod := 0xF1
  activePeriod := 0xF1
  psSel := 0b101
  tmr := 0x00
  tif := false
  tie := true
  gate := false
  rstOut := false
  ind := false
  nopCnt := 0
  cfgCause := 0
  launch := Launch.programP1
  trace := []
  draws := 0

/-- The same with an interrupt pending, `GATE` at a level. -/
def pending (gate : Bool) : State := { running with tif := true, gate := gate }

/-- The same in the handler, before a step of it. -/
def handling (seq : Seq) (gate : Bool) : State := { running with seq := seq, gate := gate }

/-- The same in the delay of the reset pulse, with `n` no-ops to go. -/
def pulsing (n : Nat) : State := { running with seq := .sDelay, gate := true, rstOut := true, nopCnt := n }

/-- Scenario D: a configuration that is not legal. -/
def launchD : Launch := { Launch.programP1 with refHz := 20000000, presc := 256 }

/-- Scenario D right after `POR`, and after `INIT`. -/
def bootD : State := State.resetWith launchD [] 0

/-- Scenario D halted. -/
def halted : State := { bootD with mode := .halt, cfgCause := 4 }

/-! ## One step of each operation -/

/-- P-4: a `POR` cuts a reset pulse. -/
theorem test_por_cuts_pulse : ∃ t, exec .por { pulsing 1 with ind := true } = .next t ∧ t.mode = .boot ∧
    t.seq = .main ∧ t.rstOut = false ∧ t.gate = false ∧ t.ind = false ∧ t.nopCnt = 0 ∧ t.tmr = 0x00 :=
  ⟨_, rfl, rfl, rfl, rfl, rfl, rfl, rfl, rfl⟩

/-- P-2: `GATE_RESET` = 1 and `TMR_RESET` = 0xFF. -/
theorem test_por_parameters :
    ∃ t, exec .por { halted with launch := { launchD with gateReset := true, tmrReset := 0xFF } } = .next t ∧
      t.gate = true ∧ t.tmr = 0xFF ∧ t.cfgCause = 0 :=
  ⟨_, rfl, rfl, rfl, rfl⟩

/-- V1, and section 2.4's last row: a flag set in `BOOT` stays. -/
theorem test_init_legal : ∃ t, exec .init { State.reset with tif := true } = .next t ∧ t.mode = .run ∧
    t.tie = true ∧ t.basePeriod = 0xF1 ∧ t.activePeriod = 0xF1 ∧ t.psSel = 0b101 ∧ t.tif = true :=
  ⟨_, rfl, rfl, rfl, rfl, rfl, rfl, rfl⟩

/-- X15, Scenario D: halt with cause 4. -/
theorem test_init_fault : exec .init bootD = .next halted := rfl

/-- T4 and T5: an expiry. -/
theorem test_tick_expiry :
    exec .tick { running with tmr := 0xFF } = .next { running with tmr := 0x00, tif := true } ∧
    exec .tick { pending false with tmr := 0xFF } = .next (pending false) := ⟨rfl, rfl⟩

/-- T3 and T6: no expiry, and the flag is not cleared. -/
theorem test_tick_counts :
    exec .tick { running with tmr := 0xFE } = .next { running with tmr := 0xFF } ∧
    exec .tick { pending false with tmr := 0x7F } = .next { pending false with tmr := 0x80 } := ⟨rfl, rfl⟩

/-- S7 and S8: the product wraps. -/
theorem test_poll_extended :
    exec (.poll false) { running with basePeriod := 0xF3 } =
      .next { running with basePeriod := 0xF3, activePeriod := 0x7E, ind := true } ∧
    exec (.poll false) { running with basePeriod := 0xE7 } =
      .next { running with basePeriod := 0xE7, activePeriod := 0x06, ind := true } := ⟨rfl, rfl⟩

/-- S3: the base value comes back. -/
theorem test_poll_normal :
    exec (.poll true) { running with activePeriod := 0x6A, ind := true } = .next running := rfl

/-- G2: the reload discards the latency and reads the shared cell. -/
theorem test_isrEnter :
    exec .isrEnter { pending false with tmr := 0x03, activePeriod := 0x6A } =
      .next { running with tmr := 0x6A, activePeriod := 0x6A, seq := .sToggle } := rfl

/-- G4: no nesting. -/
theorem test_isrEnter_not_nested :
    exec .isrEnter { handling .sRet true with tif := true } = .refused (.notEnabled .isrEnter) := rfl

/-- G6: the gate opens. -/
theorem test_isrToggle_opens : exec .isrToggle (handling .sToggle false) = .next (handling .sRsthi true) := rfl

/-- G7: the gate closes, without a pulse. -/
theorem test_isrToggle_closes : exec .isrToggle (handling .sToggle true) = .next (handling .sRet false) := rfl

/-- G9: the pulse starts with `RST_PULSE_NOPS` = 2. -/
theorem test_isrRsthi : exec .isrRsthi (handling .sRsthi true) = .next (pulsing 2) := rfl

/-- G12 and G13: the last no-op, and none after it. -/
theorem test_isrNop :
    exec .isrNop (pulsing 1) = .next (pulsing 0) ∧
    exec .isrNop (pulsing 0) = .refused (.notEnabled .isrNop) := ⟨rfl, rfl⟩

/-- G14 and G15: the pulse ends when its no-ops are counted, not before. -/
theorem test_isrRstlo :
    exec .isrRstlo (pulsing 0) = .next (handling .sRet true) ∧
    exec .isrRstlo (pulsing 1) = .refused (.notEnabled .isrRstlo) := ⟨rfl, rfl⟩

/-- G17: an expiry during the handler is still pending after it. -/
theorem test_isrRet :
    exec .isrRet { handling .sRet true with tif := true } = .next (pending true) := rfl

/-! ## The tables of the Period Calculator -/

/-- V1 to V8. -/
theorem test_pcalc_legal :
    [pcalc 12000000 6400000 64, pcalc 12000000 3200000 128, pcalc 20000000 6400000 64, pcalc 8000000 6400000 64,
      pcalc 8000000 5120000 32, pcalc 16000000 5120000 64, pcalc 24000000 6400000 128, pcalc 4000000 1024000000 2] =
    [.valid 960 15 0xF1 0b101, .valid 1920 15 0xF1 0b110, .valid 1600 25 0xE7 0b101, .valid 640 10 0xF6 0b101,
      .valid 800 25 0xE7 0b100, .valid 1600 25 0xE7 0b101, .valid 1920 15 0xF1 0b110, .valid 2 1 0xFF 0b000] := by
  decide

/-- X1 to X9: causes 1 and 2. -/
theorem test_pcalc_refused_formula :
    [pcalc 0 6400000 64, pcalc 3000000 6400000 64, pcalc 12500000 6400000 64, pcalc 6000000 3200000 64,
      pcalc 12000000 6400500 64, pcalc 12000000 999 64, pcalc 12000000 0 64, pcalc 12000000 7000000 64,
      pcalc 4294000000 1000 256].map (fun r => match r with | .invalid c => (causeCode c).toNat | .valid .. => 0) =
    [1, 1, 1, 2, 2, 2, 2, 2, 2] := by decide

/-- X10 to X18: causes 3 and 4. -/
theorem test_pcalc_refused_prescaler :
    [pcalc 12000000 6400000 0, pcalc 12000000 6400000 1, pcalc 12000000 6400000 3, pcalc 12000000 6400000 512,
      pcalc 4000000 2048000 1, pcalc 20000000 6400000 256, pcalc 20000000 5120000 64, pcalc 20000000 5120000 128,
      pcalc 4000000 2048000000 2].map
      (fun r => match r with | .invalid c => (causeCode c).toNat | .valid .. => 0) =
    [3, 3, 3, 3, 3, 4, 4, 4, 4] := by decide

/-- X19 to X28: cause 5, and which of two causes wins. -/
theorem test_pcalc_refused_range :
    [pcalc 12000000 6400000 32, pcalc 24000000 6400000 64, pcalc 20000000 6400000 32, pcalc 4000000 2048000 2,
      pcalc 4000000 2048000 4, pcalc 4000000 1024000 8, pcalc 4292000000 1000 256, pcalc 3000000 6400000 3,
      pcalc 12000000 6400500 3, pcalc 20000000 6400000 512].map
      (fun r => match r with | .invalid c => (causeCode c).toNat | .valid .. => 0) =
    [5, 5, 5, 5, 5, 5, 5, 1, 2, 3] := by decide

/-! ## The trace text of R96 -/

theorem test_text_numbers :
    numberOf ['0', 'x', 'F', 'E'] = some 254 ∧ numberOf ['1', '5'] = some 15 ∧ numberOf ['1', 'x'] = none ∧
      settingOf ['P', 'R', 'E', 'S', 'C'] ['P', 'R', 'E', 'S', 'C', '=', '6', '4'] = some 64 := by decide

set_option maxRecDepth 4000 in
theorem test_text_events :
    parseTrace ['P', 'O', 'R', ' ', ';', 'P', 'O', 'L', 'L', ' ', '0', '#', ';', 'x', '\n', 'T', 'I', 'C', 'K', '*',
      '5'] = some [.event (.event .por), .event (.event (.poll false)), .event (.ticks 5)] := by decide

/-! ## Instances of the hypotheses: words and steps -/

theorem witness_DecoderAcceptsElevenWords :
    { running with trace := [0xA0, 0x20] }.trace = 0xA0 :: [0x20] ∧
      (0xA0 : Byte) ∉ [0x00#8, 0x10#8, 0x20#8, 0x30#8, 0x31#8, 0x40#8, 0x50#8, 0x60#8, 0x70#8, 0x80#8, 0x90#8] :=
  ⟨rfl, by decide⟩

/-- One byte for each of the four clauses, at the boundary of its range where there is one. -/
theorem witness_DecodeChecksInOrder :
    (0x32#8).toNat / 2 % 8 ≠ 0 ∧
    ((0xA0#8).toNat / 2 % 8 = 0 ∧ 9 < (0xA0#8).toNat / 16) ∧
    ((0x91#8).toNat / 2 % 8 = 0 ∧ (0x91#8).toNat / 16 ≤ 9 ∧ (0x91#8).toNat % 2 = 1 ∧ (0x91#8).toNat / 16 ≠ 3) ∧
    ((0x90#8).toNat / 2 % 8 = 0 ∧ (0x90#8).toNat / 16 ≤ 9 ∧ (0x90#8).toNat % 2 = 0) ∧
    ((0x31#8).toNat / 2 % 8 = 0 ∧ (0x31#8).toNat / 16 ≤ 9 ∧ (0x31#8).toNat / 16 = 3) := by decide

theorem witness_StreamDecodeEncodeAgree :
    (Instr.poll true).wellFormed = true ∧ decode [0x31, 0xFF] = .ok (.poll true, [0xFF]) := ⟨rfl, rfl⟩

theorem witness_StepRunsDecodedOperation :
    { running with trace := [0x20, 0x31] }.trace = 0x20 :: [0x31] ∧ decodeWord 0x20 = .ok .tick ∧
      Instr.tick.wellFormed = true := ⟨rfl, rfl, rfl⟩

theorem witness_StepWithoutTraceNeverStops : State.reset.trace = [] := rfl

/-- Both reasons to refuse. -/
theorem witness_StepRefusesOnlyAtBoundary :
    step { running with trace := [0xA0] } = .refused (.invalidWord .opCode) ∧
    step { running with trace := [0x40] } = .refused (.notEnabled .isrEnter) := ⟨rfl, rfl⟩

/-- Each operation completes somewhere. -/
theorem witness_OperationCompletesExactlyWhenEnabled :
    (∃ t, exec .por running = .next t) ∧ (∃ t, exec .init State.reset = .next t) ∧
    (∃ t, exec .tick running = .next t) ∧ (∃ t, exec (.poll false) running = .next t) ∧
    (∃ t, exec (.poll true) running = .next t) ∧ (∃ t, exec .isrEnter (pending false) = .next t) ∧
    (∃ t, exec .isrToggle (handling .sToggle false) = .next t) ∧
    (∃ t, exec .isrRsthi (handling .sRsthi true) = .next t) ∧ (∃ t, exec .isrNop (pulsing 1) = .next t) ∧
    (∃ t, exec .isrRstlo (pulsing 0) = .next t) ∧ (∃ t, exec .isrRet (handling .sRet true) = .next t) ∧
    running.mode = .run ∧ halted.mode ≠ .run :=
  ⟨⟨_, rfl⟩, ⟨_, rfl⟩, ⟨_, rfl⟩, ⟨_, rfl⟩, ⟨_, rfl⟩, ⟨_, rfl⟩, ⟨_, rfl⟩, ⟨_, rfl⟩, ⟨_, rfl⟩, ⟨_, rfl⟩, ⟨_, rfl⟩, rfl,
    by decide⟩

theorem witness_DisabledOperationRefused :
    exec .isrEnter running = .refused (.notEnabled .isrEnter) ∧
    exec .init running = .refused (.notEnabled .init) := ⟨rfl, rfl⟩

theorem witness_PendingInterruptGoesFirst :
    ((pending false).mode = .run ∧ (pending false).tif = true ∧ (pending false).tie = true ∧
      (pending false).seq = .main) ∧
    ({ handling .sRet true with tif := true }.mode = .run ∧ { handling .sRet true with tif := true }.tif = true ∧
      { handling .sRet true with tif := true }.tie = true ∧ { handling .sRet true with tif := true }.seq = .sRet) := by
  decide

/-! ## Instances of the hypotheses: the operations -/

theorem witness_PorWritesResetValues :
    running.launch = (pulsing 1).launch ∧ running.trace = (pulsing 1).trace ∧ running.draws = (pulsing 1).draws ∧
      running ≠ pulsing 1 := by decide

theorem witness_InitLegalWritesSix :
    State.reset.mode = .boot ∧
      pcalc State.reset.launch.refHz.toNat State.reset.launch.fsHz.toNat State.reset.launch.presc.toNat =
        .valid 960 15 0xF1 0b101 := by decide

theorem witness_InitFaultHalts :
    bootD.mode = .boot ∧
      pcalc bootD.launch.refHz.toNat bootD.launch.fsHz.toNat bootD.launch.presc.toNat = .invalid .notDivisible := by
  decide

theorem witness_PollSelectsRange :
    (running.mode = .run ∧ running.seq = .main ∧ ¬(running.tif = true ∧ running.tie = true)) ∧
    ¬((pending false).mode = .run ∧ (pending false).seq = .main ∧
      ¬((pending false).tif = true ∧ (pending false).tie = true)) := by decide

theorem witness_IsrEnterReloadsTimer :
    ((pending true).mode = .run ∧ (pending true).seq = .main ∧ (pending true).tif = true ∧
      (pending true).tie = true) ∧
    ¬(running.mode = .run ∧ running.seq = .main ∧ running.tif = true ∧ running.tie = true) := by decide

theorem witness_IsrToggleFlipsGate :
    ((handling .sToggle false).mode = .run ∧ (handling .sToggle false).seq = .sToggle ∧
      (handling .sToggle false).gate = false) ∧
    ((handling .sToggle true).mode = .run ∧ (handling .sToggle true).seq = .sToggle ∧
      (handling .sToggle true).gate = true) ∧
    ¬(running.mode = .run ∧ running.seq = .sToggle) ∧ ∃ t, exec .tick (handling .sToggle true) = .next t :=
  ⟨by decide, by decide, by decide, _, rfl⟩

theorem witness_IsrRsthiRaisesReset :
    ((handling .sRsthi true).mode = .run ∧ (handling .sRsthi true).seq = .sRsthi) ∧
    ¬(running.mode = .run ∧ running.seq = .sRsthi) := by decide

/-- At `NOPCNT` 1, the least that counts down, and at 0. -/
theorem witness_IsrNopCountsDown :
    ((pulsing 1).mode = .run ∧ (pulsing 1).seq = .sDelay ∧ 0 < (pulsing 1).nopCnt) ∧
    ¬((pulsing 0).mode = .run ∧ (pulsing 0).seq = .sDelay ∧ 0 < (pulsing 0).nopCnt) := by decide

theorem witness_IsrRstloLowersReset :
    ((pulsing 0).mode = .run ∧ (pulsing 0).seq = .sDelay ∧ (pulsing 0).nopCnt = 0) ∧
    ¬((pulsing 1).mode = .run ∧ (pulsing 1).seq = .sDelay ∧ (pulsing 1).nopCnt = 0) := by decide

theorem witness_IsrRetReturnsToMain :
    ((handling .sRet true).mode = .run ∧ (handling .sRet true).seq = .sRet) ∧
    ¬(running.mode = .run ∧ running.seq = .sRet) ∧
    ({ handling .sRet true with tif := true }.mode = .run ∧ { handling .sRet true with tif := true }.seq = .sRet ∧
      { handling .sRet true with tif := true }.tif = true ∧
      { handling .sRet true with tif := true }.tie = true) := by decide

/-- For each operation a next state, and a register outside its list. -/
theorem witness_OperationFrames :
    (∃ t, exec .init State.reset = .next t) ∧ Reg.tmr ∉ [Reg.mode, .basePeriod, .activePeriod, .psSel, .tie, .cfgCause] ∧
    (∃ t, exec .tick running = .next t) ∧ Reg.gate ∉ [Reg.tmr, .tif] ∧
    (∃ t, exec (.poll true) running = .next t) ∧ Reg.tmr ∉ [Reg.activePeriod, .ind] ∧
    (∃ t, exec .isrEnter (pending true) = .next t) ∧ Reg.activePeriod ∉ [Reg.tif, .tmr, .seq] ∧
    (∃ t, exec .isrToggle (handling .sToggle true) = .next t) ∧ Reg.rstOut ∉ [Reg.gate, .seq] ∧
    (∃ t, exec .isrRsthi (handling .sRsthi true) = .next t) ∧ Reg.gate ∉ [Reg.rstOut, .nopCnt, .seq] ∧
    (∃ t, exec .isrNop (pulsing 1) = .next t) ∧ Reg.seq ∉ [Reg.nopCnt] ∧
    (∃ t, exec .isrRstlo (pulsing 0) = .next t) ∧ Reg.gate ∉ [Reg.rstOut, .seq] ∧
    (∃ t, exec .isrRet (handling .sRet true) = .next t) ∧ Reg.tif ∉ [Reg.seq] :=
  ⟨⟨_, rfl⟩, by decide, ⟨_, rfl⟩, by decide, ⟨_, rfl⟩, by decide, ⟨_, rfl⟩, by decide, ⟨_, rfl⟩, by decide, ⟨_, rfl⟩,
    by decide, ⟨_, rfl⟩, by decide, ⟨_, rfl⟩, by decide, ⟨_, rfl⟩, by decide⟩

/-- A change of each register the clauses name. -/
theorem witness_EachRegisterHasItsWriters :
    (∃ t, exec .isrToggle (handling .sToggle false) = .next t ∧ t.gate ≠ (handling .sToggle false).gate ∧
      t.seq ≠ (handling .sToggle false).seq) ∧
    (∃ t, exec .isrRsthi (handling .sRsthi true) = .next t ∧ t.rstOut ≠ (handling .sRsthi true).rstOut ∧
      t.nopCnt ≠ (handling .sRsthi true).nopCnt) ∧
    (∃ t, exec .tick running = .next t ∧ t.tmr ≠ running.tmr) ∧
    (∃ t, exec .isrEnter (pending true) = .next t ∧ (pending true).tif = true ∧ t.tif = false) ∧
    (∃ t, exec .tick { running with tmr := 0xFF } = .next t ∧ { running with tmr := 0xFF }.tif = false ∧
      t.tif = true) ∧
    (∃ t, exec (.poll false) running = .next t ∧ t.activePeriod ≠ running.activePeriod ∧ t.ind ≠ running.ind) ∧
    (∃ t, exec .init State.reset = .next t ∧ t.mode ≠ State.reset.mode) :=
  ⟨⟨_, rfl, by decide, by decide⟩, ⟨_, rfl, by decide, by decide⟩, ⟨_, rfl, by decide⟩, ⟨_, rfl, rfl, rfl⟩,
    ⟨_, rfl, rfl, rfl⟩, ⟨_, rfl, by decide, by decide⟩, ⟨_, rfl, by decide⟩⟩

/-! ## Instances of the hypotheses: the Period Calculator -/

/-- `q` = 1, 15 and 25: V8, V1, V3. -/
theorem witness_PcalcAcceptsExactlyLegal :
    pcalc 4000000 1024000000 2 = .valid 2 1 0xFF 0b000 ∧ pcalc 12000000 6400000 64 = .valid 960 15 0xF1 0b101 ∧
      pcalc 20000000 6400000 64 = .valid 1600 25 0xE7 0b101 := by decide

theorem legal_scenarioA : Legal 12000000 6400000 64 :=
  ⟨by decide, by decide, by decide, by decide, by decide, by decide, by decide⟩

theorem witness_RawHasClosedForm : pcalc 12000000 3200000 128 = .valid 1920 15 0xF1 0b110 := by decide

theorem witness_ThirtyTwoBitCalculatorAgrees :
    (4000000 < 2 ^ 32 ∧ 4000000 ≤ 4000000) ∧ (4294967295 < 2 ^ 32 ∧ 4000000 ≤ 4294967295) ∧
      pcalc 12000000 6400000 64 = .valid 960 15 0xF1 0b101 := by decide

theorem witness_PrescalerDivisionIsShift : prescCode 2 = some 0b000 ∧ prescCode 256 = some 0b111 := by decide

theorem witness_ReadingsAgreeWhereAccepted : pcalc 20000000 6400000 64 = .valid 1600 25 0xE7 0b101 := by decide

theorem illegal_launchD : ¬LegalLaunch launchD := fun h => absurd h.prescDivides (by decide)

theorem witness_InitSeparatesLegalFromIllegal :
    (State.reset.mode = .boot ∧ State.reset.tie = false ∧ LegalLaunch State.reset.launch) ∧
    (bootD.mode = .boot ∧ bootD.tie = false ∧ ¬LegalLaunch bootD.launch ∧ Instr.por ∉ [Instr.tick] ∧
      ∃ u, runEvents [.tick] halted = .next u) :=
  ⟨⟨rfl, rfl, legal_scenarioA⟩, rfl, rfl, illegal_launchD, by decide, _, rfl⟩

/-! ## Instances of the hypotheses: ticks and the shared cell -/

theorem witness_ReloadBytesTimeTheirTicks : (1 ≤ 1 ∧ 25 ≤ 25) ∧ (1 ≤ 255 ∧ 255 ≤ 255) := by decide

/-- One tick from the expiry, and one tick after it. -/
theorem witness_NextExpiryIsTicksAway :
    Instr.isrEnter ∉ [Instr.tick, .poll true] ∧ Instr.por ∉ [Instr.tick, .poll true] ∧
    (∃ u, runEvents [.tick, .poll true] { running with tmr := 0xFE } = .next u ∧ u.tmr = 0xFF) ∧
    (∃ u, runEvents [.tick, .poll true] running = .next u ∧ u.tmr ≠ 0xFF) :=
  ⟨by decide, by decide, ⟨_, rfl, rfl⟩, _, rfl, by decide⟩

theorem witness_TimerAndFlagAfterTicks :
    Instr.isrEnter ∉ [Instr.tick, .tick] ∧ Instr.por ∉ [Instr.tick, .tick] ∧
    (∃ u, runEvents [.tick, .tick] { running with tmr := 0xFE } = .next u ∧ u.tif = true) ∧
    (∃ u, runEvents [.tick, .tick] { running with tmr := 0xFD } = .next u ∧ u.tif = false) :=
  ⟨by decide, by decide, ⟨_, rfl, rfl⟩, _, rfl, rfl⟩

theorem witness_TickCommutesWithPoll :
    (∃ a c, exec .tick { running with tmr := 0xFE } = .next a ∧ exec (.poll false) { running with tmr := 0xFE } =
      .next c ∧ { running with tmr := 0xFE }.tmr ≠ 0xFF) ∧
    (∃ a c, exec .tick { running with tmr := 0xFF } = .next a ∧ exec (.poll false) { running with tmr := 0xFF } =
      .next c ∧ { running with tmr := 0xFF }.tmr = 0xFF ∧ { running with tmr := 0xFF }.tie = true) :=
  ⟨⟨_, _, rfl, rfl, by decide⟩, _, _, rfl, rfl, rfl, rfl⟩

/-- A `POLL` before an entry, and an `INIT` before an entry. -/
theorem witness_HandlerLoadsLatestWrite :
    (∃ a u w, exec (.poll false) { running with tmr := 0xFF } = .next a ∧ runEvents [.tick] a = .next u ∧
      exec .isrEnter u = .next w) ∧
    (∃ a u w, exec .init { State.reset with tmr := 0xFF } = .next a ∧ runEvents [.tick] a = .next u ∧
      exec .isrEnter u = .next w) ∧
    Instr.por ∉ [Instr.tick] ∧ ∀ b, Instr.poll b ∉ [Instr.tick] :=
  ⟨⟨_, _, _, rfl, rfl, rfl⟩, ⟨_, _, _, rfl, rfl, rfl⟩, by decide, by decide⟩

theorem witness_RangeChangeNeverDrifts :
    running.mode = .run ∧ Instr.por ∉ [Instr.poll false, .tick, .poll true, .poll false] ∧
    (∃ t u v, runEvents [.poll false, .tick, .poll true, .poll false] running = .next t ∧
      exec (.poll true) t = .next u ∧ exec (.poll false) t = .next v) :=
  ⟨rfl, by decide, _, _, _, rfl, rfl, rfl⟩

/-! ## Instances of the hypotheses: the handler -/

/-- An opening activation with a tick inside it, and a closing one. -/
theorem witness_ActivationHasItsSteps :
    (∃ a b c, exec .isrEnter (pending false) = .next a ∧
      runEvents [.isrToggle, .isrRsthi, .isrNop, .tick, .isrNop, .isrRstlo] a = .next b ∧
      exec .isrRet b = .next c) ∧
    (∃ a b c, exec .isrEnter (pending true) = .next a ∧ runEvents [.isrToggle] a = .next b ∧
      exec .isrRet b = .next c) ∧
    Instr.por ∉ [Instr.isrToggle, .isrRsthi, .isrNop, .tick, .isrNop, .isrRstlo] ∧
    Instr.isrRet ∉ [Instr.isrToggle, .isrRsthi, .isrNop, .tick, .isrNop, .isrRstlo] :=
  ⟨⟨_, _, _, rfl, rfl, rfl⟩, ⟨_, _, _, rfl, rfl, rfl⟩, by decide, by decide⟩

/-- The same two activations, with a shared cell one tick from its expiry. -/
theorem witness_ActivationNetEffect :
    (∃ a b c, exec .isrEnter { pending false with activePeriod := 0xFF } = .next a ∧
      runEvents [.isrToggle, .isrRsthi, .isrNop, .tick, .isrNop, .isrRstlo] a = .next b ∧
      exec .isrRet b = .next c ∧ c.tif = true) ∧
    (∃ a b c, exec .isrEnter (pending true) = .next a ∧ runEvents [.isrToggle] a = .next b ∧
      exec .isrRet b = .next c ∧ c.tif = false) ∧
    Instr.por ∉ [Instr.isrToggle] ∧ Instr.isrRet ∉ [Instr.isrToggle] :=
  ⟨⟨_, _, _, rfl, rfl, rfl, rfl⟩, ⟨_, _, _, rfl, rfl, rfl, rfl⟩, by decide, by decide⟩

/-- With the gate closed and no-ops from 0 to all of them, and with the gate open. -/
theorem witness_HandlerRunsToCompletion :
    ((pending false).mode = .run ∧ (pending false).seq = .main ∧ (pending false).tif = true ∧
      (pending false).tie = true ∧ (pending false).rstOut = false ∧ (pending false).nopCnt = 0 ∧
      (pending false).gate = false ∧ 0 ≤ (pending false).launch.rstPulseNops ∧
      2 ≤ (pending false).launch.rstPulseNops) ∧
    ((pending true).mode = .run ∧ (pending true).seq = .main ∧ (pending true).tif = true ∧
      (pending true).tie = true ∧ (pending true).rstOut = false ∧ (pending true).nopCnt = 0) := by decide

theorem witness_GateTogglesOncePerActivation :
    (∃ a b c, exec .isrEnter { pending true with activePeriod := 0xFE } = .next a ∧
      runEvents [.isrToggle, .isrRet, .tick, .tick] a = .next b ∧ exec .isrEnter b = .next c) ∧
    Instr.isrEnter ∉ [Instr.isrToggle, .isrRet, .tick, .tick] ∧
    Instr.por ∉ [Instr.isrToggle, .isrRet, .tick, .tick] :=
  ⟨⟨_, _, _, rfl, rfl, rfl⟩, by decide, by decide⟩

/-- One instance for each of the three clauses, the third for both levels of the gate. -/
theorem witness_ResetPulseOnlyOnOpening :
    (∃ t, exec .isrRsthi (handling .sRsthi true) = .next t ∧ (handling .sRsthi true).rstOut = false ∧
      t.rstOut = true) ∧
    ((pending false).seq ≠ .sRsthi ∧ ∃ u t, runEvents [.isrEnter, .isrToggle, .tick] (pending false) = .next u ∧
      exec .isrRsthi u = .next t) ∧
    (∃ a b c, exec .isrToggle (handling .sToggle false) = .next a ∧
      runEvents [.isrRsthi, .isrNop, .isrNop, .isrRstlo] a = .next b ∧ exec .isrRet b = .next c ∧ a.gate = true) ∧
    (∃ a b c, exec .isrToggle (handling .sToggle true) = .next a ∧ runEvents [.tick] a = .next b ∧
      exec .isrRet b = .next c ∧ a.gate = false) ∧
    (Instr.por ∉ [Instr.isrRsthi, .isrNop, .isrNop, .isrRstlo] ∧
      Instr.isrRet ∉ [Instr.isrRsthi, .isrNop, .isrNop, .isrRstlo]) ∧
    Instr.por ∉ [Instr.tick] ∧ Instr.isrRet ∉ [Instr.tick] :=
  ⟨⟨_, rfl, rfl, rfl⟩, ⟨by decide, _, _, rfl, rfl⟩, ⟨_, _, _, rfl, rfl, rfl, rfl⟩, ⟨_, _, _, rfl, rfl, rfl, rfl⟩,
    by decide, by decide, by decide⟩

/-- A window with one tick of latency at its end. -/
theorem witness_WindowLengthIsPeriodPlusLatency :
    (∃ a u v w x, exec .isrEnter { pending true with activePeriod := 0xFE } = .next a ∧
      runEvents [.isrToggle, .isrRet, .tick] a = .next u ∧ u.tif = false ∧ exec .tick u = .next v ∧ v.tif = true ∧
      runEvents [.tick] v = .next w ∧ exec .isrEnter w = .next x) ∧
    Instr.isrEnter ∉ [Instr.isrToggle, .isrRet, .tick] ∧ Instr.por ∉ [Instr.isrToggle, .isrRet, .tick] ∧
    Instr.isrEnter ∉ [Instr.tick] ∧ Instr.por ∉ [Instr.tick] :=
  ⟨⟨_, _, _, _, _, rfl, rfl, rfl, rfl, rfl, rfl, rfl⟩, by decide, by decide, by decide, by decide⟩

theorem witness_HalfPeriodFlipsGate :
    running.mode = .run ∧ running.seq = .main ∧ running.tie = true ∧ running.rstOut = false ∧
      running.nopCnt = 0 := by decide

/-! ## Instances of the hypotheses: invariants and reachable states -/

/-- The state a number of steps later. -/
def afterSteps : Nat → State → Option State
  | 0, s => some s
  | n + 1, s =>
    match step s with
    | .next t => afterSteps n t
    | .fault _ => none
    | .refused _ => none

theorem reachable_afterSteps (n : Nat) : ∀ {s t : State}, Reachable s → afterSteps n s = some t → Reachable t := by
  induction n with
  | zero => intro s t h e; cases e; exact h
  | succ n ih =>
    intro s t h e
    unfold afterSteps at e
    cases hs : step s with
    | next u => rw [hs] at e; exact ih (.step h hs) e
    | fault r => cases r
    | refused r => rw [hs] at e; cases e

/-- A launch whose timer expires with the first tick. -/
def launchA : Launch := { Launch.programP1 with tmrReset := 0xFF }

theorem reachable_running : Reachable { running with tmr := 0xFF, launch := launchA, draws := 1 } :=
  reachable_afterSteps 1 (.reset launchA [0x10] 0) rfl

theorem reachable_extended :
    Reachable { running with tmr := 0xFF, activePeriod := 0x6A, ind := true, launch := launchA, draws := 1 } :=
  reachable_afterSteps 2 (.reset launchA [0x10, 0x30] 0) rfl

theorem reachable_pulsing : Reachable { pulsing 2 with tmr := 0xF1, launch := launchA, draws := 1 } :=
  reachable_afterSteps 5 (.reset launchA [0x10, 0x20, 0x40, 0x50, 0x60] 0) rfl

theorem reachable_halted : Reachable halted := reachable_afterSteps 1 (.reset launchD [0x10] 0) rfl

theorem stateInv_running : StateInv running where
  tieRun := by decide
  runLegal _ := ⟨960, 15, by decide⟩
  runActive _ := by decide
  pulse := by decide
  pulseGate := by decide
  idle := by decide
  nopBound := by decide
  nopIdle := by decide
  haltCause h := absurd h (by decide)
  noCause := by decide

theorem stateInv_extended : StateInv { running with activePeriod := 0x6A, ind := true } where
  tieRun := by decide
  runLegal _ := ⟨960, 15, by decide⟩
  runActive _ := by decide
  pulse := by decide
  pulseGate := by decide
  idle := by decide
  nopBound := by decide
  nopIdle := by decide
  haltCause h := absurd h (by decide)
  noCause := by decide

theorem stateInv_booting : StateInv bootD where
  tieRun := by decide
  runLegal h := absurd h (by decide)
  runActive h := absurd h (by decide)
  pulse := by decide
  pulseGate := by decide
  idle := by decide
  nopBound := by decide
  nopIdle := by decide
  haltCause h := absurd h (by decide)
  noCause := by decide

theorem stateInv_reset : StateInv State.reset where
  tieRun := by decide
  runLegal h := absurd h (by decide)
  runActive h := absurd h (by decide)
  pulse := by decide
  pulseGate := by decide
  idle := by decide
  nopBound := by decide
  nopIdle := by decide
  haltCause h := absurd h (by decide)
  noCause := by decide

/-- In normal and in extended range, and right after `INIT`. -/
theorem witness_ExtendedPeriodIsTenfold :
    (StateInv running ∧ running.mode = .run ∧ running.ind = false ∧ (∃ t, exec (.poll true) running = .next t) ∧
      (∃ t, exec (.poll false) running = .next t) ∧ 13 ≤ ticks running.basePeriod) ∧
    (StateInv { running with activePeriod := 0x6A, ind := true } ∧
      { running with activePeriod := 0x6A, ind := true }.ind = true) ∧
    (StateInv State.reset ∧ ∃ s, exec .init State.reset = .next s ∧ s.mode = .run) :=
  ⟨⟨stateInv_running, rfl, rfl, ⟨_, rfl⟩, ⟨_, rfl⟩, by decide⟩, ⟨stateInv_extended, rfl⟩, stateInv_reset, _, rfl, rfl⟩

theorem stateInv_running_traced : StateInv { running with trace := [0x20] } :=
  { stateInv_running with }

theorem witness_StepKeepsInvariant :
    StateInv { running with trace := [0x20] } ∧ ∃ t, step { running with trace := [0x20] } = .next t :=
  ⟨stateInv_running_traced, _, rfl⟩

/-- Reachable states in each mode, one in the reset pulse. -/
theorem witness_ReachableStatesObeyInvariants :
    (∃ s, Reachable s ∧ s.mode = .boot) ∧ (∃ s, Reachable s ∧ s.mode = .run ∧ s.ind = true) ∧
    (∃ s, Reachable s ∧ s.rstOut = true) ∧ (∃ s, Reachable s ∧ s.mode = .halt) :=
  ⟨⟨_, .reset launchA [] 0, rfl⟩, ⟨_, reachable_extended, rfl, rfl⟩, ⟨_, reachable_pulsing, rfl⟩,
    _, reachable_halted, rfl⟩

theorem witness_ModeChangesOnlyByInitAndPor :
    (∃ s, Reachable s ∧ s.seq ≠ .main) ∧
    (∃ t, exec .isrRsthi (handling .sRsthi true) = .next t ∧ t.seq ≠ (handling .sRsthi true).seq) ∧
    (∃ t, exec .init bootD = .next t ∧ t.mode ≠ bootD.mode) ∧ ∃ t, exec .por halted = .next t ∧ t.mode ≠ halted.mode :=
  ⟨⟨_, reachable_pulsing, by decide⟩, ⟨_, rfl, by decide⟩, ⟨_, rfl, by decide⟩, _, rfl, by decide⟩

theorem witness_NopCountIsBounded :
    (∃ s, Reachable s ∧ s.seq ≠ .sDelay) ∧ ∃ s, Reachable s ∧ s.nopCnt = s.launch.rstPulseNops ∧ 0 < s.nopCnt :=
  ⟨⟨_, reachable_running, by decide⟩, _, reachable_pulsing, rfl, by decide⟩

theorem witness_HaltIsPermanent :
    halted.mode = .halt ∧ Instr.por ∉ [Instr.tick, .tick] ∧ ∃ t, runEvents [.tick, .tick] halted = .next t :=
  ⟨rfl, by decide, _, rfl⟩

theorem witness_IllegalConfigurationNeverDrivesPins : Reachable halted ∧ ¬LegalLaunch halted.launch :=
  ⟨reachable_halted, illegal_launchD⟩

/-- Scenario D run for ever: `INIT` halts, then the timer counts. -/
def haltedRun : Nat → State
  | 0 => bootD
  | 1 => halted
  | n + 2 => countTimer (haltedRun (n + 1))

/-- Its events. -/
def haltedEvent (n : Nat) : Instr := if n = 0 then .init else .tick

theorem haltedRun_isRun : IsRun haltedEvent haltedRun where
  start := ⟨launchD, [], 0, rfl⟩
  steps n := by
    match n with
    | 0 => rfl
    | n + 1 => rfl

theorem witness_IllegalRunNeverMovesPins : IsRun haltedEvent haltedRun ∧ ¬LegalLaunch (haltedRun 0).launch :=
  ⟨haltedRun_isRun, illegal_launchD⟩

theorem witness_LaunchNeverChanges :
    (∃ t, step { running with trace := [0x20] } = .next t) ∧ IsRun FairRun.ev FairRun.st :=
  ⟨⟨_, rfl⟩, FairRun.isRun⟩

end Sys2Proof.Tests
end

/-! ## Proofs: the scope of the block (`00_scope.md`)

The launch is fixed, a step performs the decoded operation, a disabled operation is refused. -/

namespace Sys2Proof

/-- Decoding undoes encoding on one word (R90, R94). -/
@[simp] theorem decodeWord_encodeWord (i : Instr) : decodeWord (encodeWord i) = .ok i := by
  cases i with
  | poll b => cases b <;> rfl
  | _ => rfl

/-- A byte written as an 8-bit table word is laid out as itself. -/
@[simp] theorem tableBytes_toNat (w : Byte) : tableBytes 8 w.toNat = [w] := by
  have hlt : w.toNat < 2 ^ 8 := w.isLt
  rw [tableBytes, Nat.mod_eq_of_lt hlt, BitVec.ofNat_toNat, BitVec.setWidth_eq]

end Sys2Proof

namespace Sys2Proof.Machine

open Sys2Proof

/-! ### What an operation answers -/

/-- A disabled operation is refused by name (R12, R93). -/
theorem exec_eq_notEnabled_iff {i : Instr} {s : State} :
    exec i s = .refused (.notEnabled i) ↔ enabled i s = false := by
  rw [exec_eq_perform]
  cases enabled i s with
  | true => simp [perform_of_enabled]
  | false => simp [perform_of_disabled]

theorem exec_ne_next_iff {i : Instr} {s : State} :
    (∀ t, exec i s ≠ .next t) ↔ enabled i s = false := by
  simp [exec_eq_next_iff]

/-- An operation that completes leaves the launch alone (R20). -/
theorem exec_launch {i : Instr} {s t : State} (h : exec i s = .next t) : t.launch = s.launch := by
  obtain ⟨-, rfl⟩ := exec_eq_next_iff.mp h
  exact effect_launch i s

/-! ### What a step and a run do -/

/-- A step whose trace begins with a valid word performs that word's operation past it (R13, R94). -/
theorem step_cons {s : State} {w : Byte} {rest : List Byte} {i : Instr}
    (ht : s.trace = w :: rest) (hd : decodeWord w = .ok i) :
    step s = exec i { s with trace := rest } := by
  have hf : fetch s = .ok (i, { s with trace := rest }) := by rw [fetch_cons s w rest ht, hd]
  rw [step, hf]

/-- The word of `i`, placed in front of the trace, is what the next step performs. -/
theorem step_withFetchWord_encodeWord (s : State) (i : Instr) :
    step (s.withFetchWord 8 (encodeWord i).toNat) = exec i s := by
  have ht : (s.withFetchWord 8 (encodeWord i).toNat).trace = encodeWord i :: s.trace := by
    simp [State.withFetchWord, placeWord]
  exact step_cons ht (decodeWord_encodeWord i)

/-- A step leaves the launch alone: it is one operation on a state with the same launch. -/
theorem step_launch {s t : State} (h : step s = .next t) : t.launch = s.launch := by
  obtain ⟨i, tr, n, hexec⟩ := step_eq_next h
  exact exec_launch (s := { s with trace := tr, draws := n }) hexec

/-- Induction along an infinite run: what holds at its start and is kept by every operation holds always. -/
theorem IsRun.invariant {ev : Nat → Instr} {st : Nat → State} (hrun : IsRun ev st) {P : State → Prop}
    (hstart : P (st 0)) (hkeep : ∀ i s t, P s → exec i s = .next t → P t) (n : Nat) : P (st n) := by
  induction n with
  | zero => exact hstart
  | succ n ih => exact hkeep (ev n) (st n) (st (n + 1)) ih (hrun.steps n)

theorem IsRun.launch_eq {ev : Nat → Instr} {st : Nat → State} (hrun : IsRun ev st) (n : Nat) :
    (st n).launch = (st 0).launch :=
  hrun.invariant (P := fun s => s.launch = (st 0).launch) rfl
    (fun _ _ _ hs hexec => (exec_launch hexec).trans hs) n

/-! ### The obligations -/

/-- Settles O53: no operation writes the launch, so no step does, nor any run by induction along it. -/
theorem launchNeverChanges : Obligations.LaunchNeverChanges := by
  unfold Obligations.LaunchNeverChanges
  exact ⟨fun _ _ h => step_launch h, fun _ _ hrun n => hrun.launch_eq n⟩

/-- Settles O6: the fetch takes the first word, and an encoded word decodes to its operation. Neither clause
needs well-formedness, which every operation has. -/
theorem stepRunsDecodedOperation : Obligations.StepRunsDecodedOperation := by
  unfold Obligations.StepRunsDecodedOperation
  exact ⟨fun _ _ _ _ ht hd _ => step_cons ht hd, fun s i _ => step_withFetchWord_encodeWord s i⟩

/-- Settles O10: both sides say that the operation is not enabled. -/
theorem disabledOperationRefused : Obligations.DisabledOperationRefused := by
  unfold Obligations.DisabledOperationRefused
  intro i s
  exact exec_ne_next_iff.trans exec_eq_notEnabled_iff.symm

end Sys2Proof.Machine

/-! ## Proofs: the registers and their invariant (`10_state.md`)

What each operation leaves unchanged, R42's invariant kept by every step, and what it says of reachable states. -/

namespace Sys2Proof.Machine

open Sys2Proof

/-! ### When each operation is enabled (R95) -/

section

variable {s : State}

@[simp] theorem enabled_por : enabled .por s = true := rfl

@[simp] theorem enabled_tick : enabled .tick s = true := rfl

@[simp] theorem enabled_init_iff : enabled .init s = true ↔ s.mode = .boot := by
  simp [enabled, initEnabled]

@[simp] theorem enabled_poll_iff {b : Bool} :
    enabled (.poll b) s = true ↔ s.mode = .run ∧ s.seq = .main ∧ ¬(s.tif = true ∧ s.tie = true) := by
  simp [enabled, pollEnabled, interruptPending, and_assoc, -not_and, not_and_or]

@[simp] theorem enabled_isrEnter_iff :
    enabled .isrEnter s = true ↔ s.mode = .run ∧ s.seq = .main ∧ s.tif = true ∧ s.tie = true := by
  simp [enabled, isrEnterEnabled, interruptPending, and_assoc]

@[simp] theorem enabled_isrToggle_iff : enabled .isrToggle s = true ↔ s.mode = .run ∧ s.seq = .sToggle := by
  simp [enabled, isrToggleEnabled]

@[simp] theorem enabled_isrRsthi_iff : enabled .isrRsthi s = true ↔ s.mode = .run ∧ s.seq = .sRsthi := by
  simp [enabled, isrRsthiEnabled]

@[simp] theorem enabled_isrNop_iff :
    enabled .isrNop s = true ↔ s.mode = .run ∧ s.seq = .sDelay ∧ 0 < s.nopCnt := by
  simp [enabled, isrNopEnabled, and_assoc, Nat.pos_iff_ne_zero]

@[simp] theorem enabled_isrRstlo_iff :
    enabled .isrRstlo s = true ↔ s.mode = .run ∧ s.seq = .sDelay ∧ s.nopCnt = 0 := by
  simp [enabled, isrRstloEnabled, and_assoc]

@[simp] theorem enabled_isrRet_iff : enabled .isrRet s = true ↔ s.mode = .run ∧ s.seq = .sRet := by
  simp [enabled, isrRetEnabled]

end

/-! ### The writes of `INIT` -/

/-- `INIT` has two outcomes: it starts the block on the calculator's values, or it takes the fault. -/
theorem initialise_cases (s : State) :
    (∃ raw q p k, pcalcLaunch s.launch = .valid raw q p k ∧ initialise s = startRunning p k s) ∨
    (∃ c, pcalcLaunch s.launch = .invalid c ∧ initialise s = raiseConfigFault c s) := by
  cases h : pcalcLaunch s.launch with
  | valid raw q p k => exact .inl ⟨raw, q, p, k, rfl, initialise_of_valid h⟩
  | invalid c => exact .inr ⟨c, rfl, initialise_of_invalid h⟩

@[simp] theorem initialise_draws (s : State) : (initialise s).draws = s.draws := by
  obtain ⟨_, _, p, k, -, he⟩ | ⟨c, -, he⟩ := initialise_cases s <;> rw [he]
  · exact startRunning_draws s p k
  · exact raiseConfigFault_draws s c

@[simp] theorem initialise_seq (s : State) : (initialise s).seq = s.seq := by
  obtain ⟨_, _, p, k, -, he⟩ | ⟨c, -, he⟩ := initialise_cases s <;> rw [he]
  · exact startRunning_seq s p k
  · exact raiseConfigFault_seq s c

theorem initialise_mode (s : State) : (initialise s).mode = .run ∨ (initialise s).mode = .halt := by
  obtain ⟨_, _, p, k, -, he⟩ | ⟨c, -, he⟩ := initialise_cases s <;> rw [he]
  · exact .inl (startRunning_mode s p k)
  · exact .inr (raiseConfigFault_mode s c)

/-! ### Frames -/

/-- The registers each operation writes, as its rule lists them (R231, R111, R141, R181, R156 to R163). -/
def writtenRegs : Instr → List Reg
  | .por => [.mode, .seq, .basePeriod, .activePeriod, .psSel, .tmr, .tif, .tie, .gate, .rstOut, .ind, .nopCnt,
      .cfgCause]
  | .init => [.mode, .basePeriod, .activePeriod, .psSel, .tie, .cfgCause]
  | .tick => [.tmr, .tif]
  | .poll _ => [.activePeriod, .ind]
  | .isrEnter => [.tif, .tmr, .seq]
  | .isrToggle => [.gate, .seq]
  | .isrRsthi => [.rstOut, .nopCnt, .seq]
  | .isrNop => [.nopCnt]
  | .isrRstlo => [.rstOut, .seq]
  | .isrRet => [.seq]

section

variable {s : State} {r : Reg}

theorem readReg_startRunning {p : Byte} {k : BitVec 3} (hr : r ∉ writtenRegs .init) :
    readReg r (startRunning p k s) = readReg r s := by
  cases r with
  | mode | basePeriod | activePeriod | psSel | tie | cfgCause => simp [writtenRegs] at hr
  | _ => rfl

theorem readReg_raiseConfigFault {c : Cause} (hr : r ∉ [Reg.mode, .cfgCause]) :
    readReg r (raiseConfigFault c s) = readReg r s := by
  cases r with
  | mode | cfgCause => simp at hr
  | _ => rfl

theorem readReg_initialise (hr : r ∉ writtenRegs .init) : readReg r (initialise s) = readReg r s := by
  obtain ⟨_, _, p, k, -, he⟩ | ⟨c, -, he⟩ := initialise_cases s <;> rw [he]
  · exact readReg_startRunning hr
  · have hsub : [Reg.mode, .cfgCause] ⊆ writtenRegs .init := by decide
    exact readReg_raiseConfigFault fun hmem => hr (hsub hmem)

theorem readReg_countTimer (hr : r ∉ writtenRegs .tick) : readReg r (countTimer s) = readReg r s := by
  cases r with
  | tmr | tif => simp [writtenRegs] at hr
  | _ => rfl

theorem readReg_selectRange {b x : Bool} (hr : r ∉ writtenRegs (.poll b)) :
    readReg r (selectRange x s) = readReg r s := by
  cases r with
  | activePeriod | ind => simp [writtenRegs] at hr
  | _ => rfl

theorem readReg_takeInterrupt (hr : r ∉ writtenRegs .isrEnter) : readReg r (takeInterrupt s) = readReg r s := by
  cases r with
  | tif | tmr | seq => simp [writtenRegs] at hr
  | _ => rfl

theorem readReg_toggleGate (hr : r ∉ writtenRegs .isrToggle) : readReg r (toggleGate s) = readReg r s := by
  cases r with
  | gate | seq => simp [writtenRegs] at hr
  | _ => rfl

theorem readReg_raiseReset (hr : r ∉ writtenRegs .isrRsthi) : readReg r (raiseReset s) = readReg r s := by
  cases r with
  | rstOut | nopCnt | seq => simp [writtenRegs] at hr
  | _ => rfl

theorem readReg_delayNop (hr : r ∉ writtenRegs .isrNop) : readReg r (delayNop s) = readReg r s := by
  cases r with
  | nopCnt => simp [writtenRegs] at hr
  | _ => rfl

theorem readReg_lowerReset (hr : r ∉ writtenRegs .isrRstlo) : readReg r (lowerReset s) = readReg r s := by
  cases r with
  | rstOut | seq => simp [writtenRegs] at hr
  | _ => rfl

theorem readReg_returnFromInterrupt (hr : r ∉ writtenRegs .isrRet) :
    readReg r (returnFromInterrupt s) = readReg r s := by
  cases r with
  | seq => simp [writtenRegs] at hr
  | _ => rfl

end

/-- THE FRAME of every operation: a register it does not write reads the same (R21). -/
theorem readReg_effect {i : Instr} {s : State} {r : Reg} (hr : r ∉ writtenRegs i) :
    readReg r (effect i s) = readReg r s := by
  cases i with
  | por => cases r <;> simp [writtenRegs] at hr
  | init => exact readReg_initialise hr
  | tick => exact readReg_countTimer hr
  | poll b => exact readReg_selectRange hr
  | isrEnter => exact readReg_takeInterrupt hr
  | isrToggle => exact readReg_toggleGate hr
  | isrRsthi => exact readReg_raiseReset hr
  | isrNop => exact readReg_delayNop hr
  | isrRstlo => exact readReg_lowerReset hr
  | isrRet => exact readReg_returnFromInterrupt hr

theorem readReg_exec {i : Instr} {s t : State} {r : Reg} (h : exec i s = .next t) (hr : r ∉ writtenRegs i) :
    readReg r t = readReg r s := by
  obtain ⟨-, rfl⟩ := exec_eq_next_iff.mp h
  exact readReg_effect hr

/-- Only a `POR` draws free values (log 1). -/
theorem effect_draws {i : Instr} (s : State) (hi : i ≠ .por) : (effect i s).draws = s.draws := by
  cases i with
  | por => exact absurd rfl hi
  | init => exact initialise_draws s
  | _ => rfl

/-! ### `pcalc` when it accepts -/

/-- INVERSION of steps 2 to 4 (R113): accepted is what passes each check in turn. -/
theorem pcalcQuotient_eq_valid_iff {raw p raw' q : Nat} {b : Byte} {k : BitVec 3} :
    pcalcQuotient raw p = .valid raw' q b k ↔
      prescCode p = some k ∧ raw % p = 0 ∧ raw / p ≤ 25 ∧ raw' = raw ∧ q = raw / p ∧ b = neg8 q := by
  unfold pcalcQuotient
  cases prescCode p with
  | none => simp
  | some j => grind

/-- INVERSION of step 1 from `t3` on (R113, R123). -/
theorem pcalcRaw_eq_valid_iff {t3 fs p raw q : Nat} {b : Byte} {k : BitVec 3} :
    pcalcRaw t3 fs p = .valid raw q b k ↔
      fs % 1000 = 0 ∧ fs / 1000 ≠ 0 ∧ t3 % (fs / 1000) = 0 ∧
        pcalcQuotient (t3 / (fs / 1000)) p = .valid raw q b k := by
  unfold pcalcRaw
  split_ifs <;> grind

/-- INVERSION of the checks on the reference clock (R113, R115). -/
theorem pcalc_eq_valid_iff {ref fs p raw q : Nat} {b : Byte} {k : BitVec 3} :
    pcalc ref fs p = .valid raw q b k ↔
      4000000 ≤ ref ∧ ref % 1000000 = 0 ∧ ref / 1000000 % 4 = 0 ∧
        pcalcRaw (ref / 1000000 / 4 * 2048000) fs p = .valid raw q b k := by
  unfold pcalc
  split_ifs <;> grind

/-- An exact quotient of a positive number is positive. -/
theorem div_pos_of_mod_eq_zero {a d : Nat} (ha : 0 < a) (h : a % d = 0) : 0 < a / d :=
  Nat.pos_of_dvd_of_pos (Nat.div_dvd_of_dvd (Nat.dvd_of_mod_eq_zero h)) ha

/-- R124, R112: the quotient of a legal configuration is from 1 to 25, and its byte is the negated quotient. It
is not 0 because every division is exact and the reference is at least 4 MHz. -/
theorem pcalc_quotient {ref fs p raw q : Nat} {b : Byte} {k : BitVec 3}
    (h : pcalc ref fs p = .valid raw q b k) : 1 ≤ q ∧ q ≤ 25 ∧ b = neg8 q := by
  obtain ⟨href, -, -, hraw⟩ := pcalc_eq_valid_iff.mp h
  obtain ⟨-, -, hexact, hquot⟩ := pcalcRaw_eq_valid_iff.mp hraw
  obtain ⟨-, hdiv, hmax, -, rfl, rfl⟩ := pcalcQuotient_eq_valid_iff.mp hquot
  have ht3 : 0 < ref / 1000000 / 4 * 2048000 := by omega
  exact ⟨div_pos_of_mod_eq_zero (div_pos_of_mod_eq_zero ht3 hexact) hdiv, hmax, rfl⟩

/-! ### Reload bytes and their ticks (R11, R82) -/

theorem toNat_neg8 {q : Nat} (hpos : 1 ≤ q) (hle : q ≤ 255) : (neg8 q).toNat = 256 - q := by
  rw [neg8, BitVec.toNat_ofNat]
  omega

theorem toNat_extendedByte (base : Byte) : (extendedByte base).toNat = 10 * base.toNat % 256 :=
  BitVec.toNat_ofNat _ _

/-- The base byte of `q` lasts `q` ticks. -/
theorem ticks_neg8 {q : Nat} (hpos : 1 ≤ q) (hle : q ≤ 255) : ticks (neg8 q) = q := by
  rw [ticks, toNat_neg8 hpos hle]
  omega

/-- The extended byte of a legal `q` lasts ten times `q` ticks: `10 * q` still fits the timer. -/
theorem ticks_extendedByte_neg8 {q : Nat} (hpos : 1 ≤ q) (hle : q ≤ 25) :
    ticks (extendedByte (neg8 q)) = 10 * q := by
  rw [ticks, toNat_extendedByte, toNat_neg8 hpos (by omega)]
  omega

/-! ### The invariant after a `POR` and under each operation -/

/-- R231 under every launch meets the invariant. -/
theorem stateInv_resetWith (l : Launch) (tr : List Byte) (n : Nat) : StateInv (State.resetWith l tr n) where
  tieRun := by simp
  runLegal := by simp
  runActive := by simp
  pulse := by simp
  pulseGate := by simp
  idle := by simp
  nopBound := by simp
  nopIdle := by simp
  haltCause := by simp
  noCause := by simp

section

variable {s : State}

/-- The invariant reads neither the timer nor the model's own fields. -/
theorem StateInv.withCounters (h : StateInv s) (v : Byte) (f : Bool) (tr : List Byte) (n : Nat) :
    StateInv { s with tmr := v, tif := f, trace := tr, draws := n } := { h with }

/-- In `RUN` the sequencer, the two pins it drives and `NOPCNT` may move together, if they keep R33, R166, R21
and R37: the other lines of the invariant do not read them. -/
theorem StateInv.withSequencer (h : StateInv s) (hrun : s.mode = .run) {c : Seq} {g o : Bool} {n : Nat}
    (pulse : o = true ↔ c = .sDelay) (pulseGate : c = .sRsthi ∨ c = .sDelay → g = true)
    (nopBound : n ≤ s.launch.rstPulseNops) (nopIdle : c ≠ .sDelay → n = 0) :
    StateInv { s with seq := c, gate := g, rstOut := o, nopCnt := n } :=
  { h with pulse, pulseGate, nopBound, nopIdle, idle := fun hne => absurd hrun hne }

theorem StateInv.rstOut_eq_false (h : StateInv s) (hseq : s.seq ≠ .sDelay) : s.rstOut = false :=
  Bool.eq_false_iff.mpr fun hout => hseq (h.pulse.mp hout)

theorem stateInv_startRunning {raw q : Nat} {p : Byte} {k : BitVec 3} (h : StateInv s) (hboot : s.mode = .boot)
    (hcalc : pcalcLaunch s.launch = .valid raw q p k) : StateInv (startRunning p k s) := by
  obtain ⟨-, -, hind⟩ := h.idle (by simp [hboot])
  exact { h with
    tieRun := by simp
    runLegal := fun _ => ⟨raw, q, hcalc⟩
    runActive := fun _ => by simp [hind, rangeByte]
    idle := by simp
    haltCause := by simp
    noCause := by simp }

theorem stateInv_raiseConfigFault {c : Cause} (h : StateInv s) (hboot : s.mode = .boot)
    (hcalc : pcalcLaunch s.launch = .invalid c) : StateInv (raiseConfigFault c s) := by
  have htie : s.tie = false := Bool.eq_false_iff.mpr fun ht => by simp [h.tieRun.mpr ht] at hboot
  exact { h with
    tieRun := by simp [htie]
    runLegal := by simp
    runActive := by simp
    idle := fun _ => h.idle (by simp [hboot])
    haltCause := fun _ => ⟨c, hcalc, rfl⟩
    noCause := by simp }

theorem stateInv_initialise (h : StateInv s) (hboot : s.mode = .boot) : StateInv (initialise s) := by
  obtain ⟨raw, q, p, k, hcalc, he⟩ | ⟨c, hcalc, he⟩ := initialise_cases s <;> rw [he]
  · exact stateInv_startRunning h hboot hcalc
  · exact stateInv_raiseConfigFault h hboot hcalc

theorem stateInv_countTimer (h : StateInv s) : StateInv (countTimer s) :=
  h.withCounters (s.tmr + 1#8) (tifAfterTick s.tmr s.tif) s.trace s.draws

/-- A `POLL` writes the cell and the indicator together, so they still agree (R187). -/
theorem stateInv_selectRange (h : StateInv s) (hrun : s.mode = .run) (x : Bool) : StateInv (selectRange x s) :=
  { h with
    runActive := fun _ => rfl
    idle := fun hne => absurd hrun hne }

theorem stateInv_takeInterrupt (h : StateInv s) (hrun : s.mode = .run) (hseq : s.seq = .main) :
    StateInv (takeInterrupt s) := by
  have hne : s.seq ≠ .sDelay := by simp [hseq]
  have hmoved : StateInv { s with seq := .sToggle } :=
    h.withSequencer hrun (by simp [h.rstOut_eq_false hne]) (by simp) h.nopBound fun _ => h.nopIdle hne
  exact hmoved.withCounters s.activePeriod false s.trace s.draws

/-- The toggle goes on to the pulse only where it opened the gate (R158, R166). -/
theorem stateInv_toggleGate (h : StateInv s) (hrun : s.mode = .run) (hseq : s.seq = .sToggle) :
    StateInv (toggleGate s) := by
  have hne : s.seq ≠ .sDelay := by simp [hseq]
  refine h.withSequencer hrun ?_ ?_ h.nopBound fun _ => h.nopIdle hne
  · cases s.gate <;> simp [h.rstOut_eq_false hne]
  · cases s.gate <;> simp

theorem stateInv_raiseReset (h : StateInv s) (hrun : s.mode = .run) (hseq : s.seq = .sRsthi) :
    StateInv (raiseReset s) :=
  h.withSequencer hrun (by simp) (fun _ => h.pulseGate (.inl hseq)) le_rfl (by simp)

theorem stateInv_delayNop (h : StateInv s) (hrun : s.mode = .run) (hseq : s.seq = .sDelay) :
    StateInv (delayNop s) :=
  h.withSequencer hrun h.pulse h.pulseGate (s.nopCnt.sub_le 1 |>.trans h.nopBound) fun hne => absurd hseq hne

theorem stateInv_lowerReset (h : StateInv s) (hrun : s.mode = .run) (hnop : s.nopCnt = 0) :
    StateInv (lowerReset s) :=
  h.withSequencer hrun (by simp) (by simp) h.nopBound fun _ => hnop

theorem stateInv_returnFromInterrupt (h : StateInv s) (hrun : s.mode = .run) (hseq : s.seq = .sRet) :
    StateInv (returnFromInterrupt s) := by
  have hne : s.seq ≠ .sDelay := by simp [hseq]
  exact h.withSequencer hrun (by simp [h.rstOut_eq_false hne]) (by simp) h.nopBound fun _ => h.nopIdle hne

end

/-- Every enabled operation keeps the invariant. -/
theorem stateInv_effect {i : Instr} {s : State} (h : StateInv s) (hen : enabled i s = true) :
    StateInv (effect i s) := by
  cases i with
  | por => exact stateInv_resetWith s.launch s.trace s.draws
  | init => exact stateInv_initialise h (enabled_init_iff.mp hen)
  | tick => exact stateInv_countTimer h
  | poll b =>
    obtain ⟨hrun, -, -⟩ := enabled_poll_iff.mp hen
    exact stateInv_selectRange h hrun (extendedRequested b)
  | isrEnter =>
    obtain ⟨hrun, hseq, -, -⟩ := enabled_isrEnter_iff.mp hen
    exact stateInv_takeInterrupt h hrun hseq
  | isrToggle =>
    obtain ⟨hrun, hseq⟩ := enabled_isrToggle_iff.mp hen
    exact stateInv_toggleGate h hrun hseq
  | isrRsthi =>
    obtain ⟨hrun, hseq⟩ := enabled_isrRsthi_iff.mp hen
    exact stateInv_raiseReset h hrun hseq
  | isrNop =>
    obtain ⟨hrun, hseq, -⟩ := enabled_isrNop_iff.mp hen
    exact stateInv_delayNop h hrun hseq
  | isrRstlo =>
    obtain ⟨hrun, -, hnop⟩ := enabled_isrRstlo_iff.mp hen
    exact stateInv_lowerReset h hrun hnop
  | isrRet =>
    obtain ⟨hrun, hseq⟩ := enabled_isrRet_iff.mp hen
    exact stateInv_returnFromInterrupt h hrun hseq

theorem StateInv.of_exec {i : Instr} {s t : State} (h : StateInv s) (hexec : exec i s = .next t) : StateInv t := by
  obtain ⟨hen, rfl⟩ := exec_eq_next_iff.mp hexec
  exact stateInv_effect h hen

theorem StateInv.of_step {s t : State} (h : StateInv s) (hstep : step s = .next t) : StateInv t := by
  obtain ⟨i, tr, n, hexec⟩ := step_eq_next hstep
  exact (h.withCounters s.tmr s.tif tr n).of_exec hexec

/-- Induction over the reachable states: what every `POR` gives and every step keeps holds of them all. -/
theorem Reachable.invariant {P : State → Prop} (hreset : ∀ l tr n, P (State.resetWith l tr n))
    (hkeep : ∀ s t, P s → Machine.step s = .next t → P t) {s : State} (hs : Reachable s) : P s := by
  induction hs with
  | reset l tr n => exact hreset l tr n
  | step _ hstep ih => exact hkeep _ _ ih hstep

theorem Reachable.stateInv {s : State} (hs : Reachable s) : StateInv s :=
  hs.invariant stateInv_resetWith fun _ _ h hstep => h.of_step hstep

/-! ### What the invariant says of a running and of a halted block -/

/-- R42 line 2: a running block has a quotient from 1 to 25; its base is that quotient negated, and its cell the
byte of the range the indicator shows. -/
theorem StateInv.run_periods {s : State} (h : StateInv s) (hrun : s.mode = .run) :
    ∃ q, 1 ≤ q ∧ q ≤ 25 ∧ s.basePeriod = neg8 q ∧ s.activePeriod = rangeByte s.ind s.basePeriod := by
  obtain ⟨raw, q, hcalc⟩ := h.runLegal hrun
  obtain ⟨hpos, hle, hbase⟩ := pcalc_quotient hcalc
  exact ⟨q, hpos, hle, hbase, h.runActive hrun⟩

/-- The two values of the shared cell and the ticks each lasts. -/
theorem rangeByte_neg8_cases (x : Bool) {q : Nat} (hpos : 1 ≤ q) (hle : q ≤ 25) :
    (rangeByte x (neg8 q) = neg8 q ∧ ticks (rangeByte x (neg8 q)) = q) ∨
    ((rangeByte x (neg8 q)).toNat = 10 * (neg8 q).toNat % 256 ∧ ticks (rangeByte x (neg8 q)) = 10 * q) := by
  cases x with
  | false => exact .inl ⟨rfl, ticks_neg8 hpos (by omega)⟩
  | true => exact .inr ⟨toNat_extendedByte (neg8 q), ticks_extendedByte_neg8 hpos hle⟩

/-- The codes of R197 are 1 to 5. -/
theorem causeCode_range (c : Cause) : 1 ≤ (causeCode c).toNat ∧ (causeCode c).toNat ≤ 5 := by
  cases c <;> decide

/-! ### Who moves `SEQ` and `MODE` (R27) -/

theorem effect_seq {i : Instr} (s : State) (hi : isHandlerStep i = false) (hpor : i ≠ .por) :
    (effect i s).seq = s.seq := by
  cases i with
  | por => exact absurd rfl hpor
  | init => exact initialise_seq s
  | tick | poll b => rfl
  | _ => cases hi

theorem effect_mode {i : Instr} (s : State) (hinit : i ≠ .init) (hpor : i ≠ .por) :
    (effect i s).mode = s.mode := by
  cases i with
  | por => exact absurd rfl hpor
  | init => exact absurd rfl hinit
  | _ => rfl

/-! ### The obligations -/

/-- Settles O47: a step is one enabled operation on a state that differs in the model's own fields only, and
every enabled operation keeps the invariant. -/
theorem stepKeepsInvariant : Obligations.StepKeepsInvariant := by
  unfold Obligations.StepKeepsInvariant
  exact fun _ _ h hstep => h.of_step hstep

/-- Settles O23: each list of the statement is `writtenRegs` of its operation. -/
theorem operationFrames : Obligations.OperationFrames := by
  unfold Obligations.OperationFrames
  refine ⟨fun _ _ _ => readReg_exec, fun _ _ _ => readReg_exec, fun _ _ _ _ => readReg_exec,
    fun _ _ _ => readReg_exec, fun _ _ _ => readReg_exec, fun _ _ _ => readReg_exec, fun _ _ _ => readReg_exec,
    fun _ _ _ => readReg_exec, fun _ _ _ => readReg_exec, fun i s t hexec => ?_⟩
  obtain ⟨-, rfl⟩ := exec_eq_next_iff.mp hexec
  exact ⟨effect_launch i s, effect_trace i s, effect_draws s⟩

/-- Settles O48: R42's lines are read off the invariant; the second one from the quotient of a running block. -/
theorem reachableStatesObeyInvariants : Obligations.ReachableStatesObeyInvariants := by
  unfold Obligations.ReachableStatesObeyInvariants
  intro s hs
  have hinv := hs.stateInv
  refine ⟨hinv.tieRun, fun hrun => ?period, fun hout => ?pulse, fun hidle => ?idle, fun hhalt => ?cause,
    fun hrun => hinv.noCause (by simp [hrun])⟩
  case period =>
    obtain ⟨q, hpos, hle, hbase, hcell⟩ := hinv.run_periods hrun
    have hcases := rangeByte_neg8_cases s.ind hpos hle
    rw [← hbase, ← hcell] at hcases
    refine ⟨q, hpos, hle, hbase, hcases.imp And.left And.left, hcases.imp And.right And.right, ?_⟩
    omega
  case pulse =>
    have hseq := hinv.pulse.mp hout
    exact ⟨hseq, hinv.pulseGate (.inr hseq)⟩
  case idle =>
    obtain ⟨hseq, hgate, hind⟩ := hinv.idle (by rcases hidle with hmode | hmode <;> simp [hmode])
    exact ⟨hseq, hgate, hinv.rstOut_eq_false (by simp [hseq]), hind⟩
  case cause =>
    obtain ⟨c, -, hcode⟩ := hinv.haltCause hhalt
    rw [hcode]
    exact causeCode_range c

/-- Settles O49: outside `RUN` the invariant keeps `SEQ` at `MAIN`, and only `INIT` and `POR` write `MODE`. -/
theorem modeChangesOnlyByInitAndPor : Obligations.ModeChangesOnlyByInitAndPor := by
  unfold Obligations.ModeChangesOnlyByInitAndPor
  refine ⟨fun s hs hseq => ?main, fun i s t hexec hseq => ?seq, fun i s t hexec hmode => ?mode⟩
  case main =>
    by_contra hrun
    exact hseq (hs.stateInv.idle hrun).1
  case seq =>
    obtain ⟨-, rfl⟩ := exec_eq_next_iff.mp hexec
    by_contra hother
    obtain ⟨hhandler, hpor⟩ := not_or.mp hother
    exact hseq (effect_seq s (Bool.eq_false_iff.mpr hhandler) hpor)
  case mode =>
    obtain ⟨hen, rfl⟩ := exec_eq_next_iff.mp hexec
    rcases eq_or_ne i .init with rfl | hinit
    · exact .inl ⟨rfl, enabled_init_iff.mp hen, initialise_mode s⟩
    · rcases eq_or_ne i .por with rfl | hpor
      · exact .inr ⟨rfl, rfl⟩
      · exact absurd (effect_mode s hinit hpor) hmode

/-- Settles O50: two lines of the invariant. -/
theorem nopCountIsBounded : Obligations.NopCountIsBounded := by
  unfold Obligations.NopCountIsBounded
  exact fun s hs => ⟨hs.stateInv.nopBound, hs.stateInv.nopIdle⟩

end Sys2Proof.Machine

/-! ## Proofs: the shared cell (`20_memory.md`)

The reload byte a handler loads is the one the latest writer of `ACTIVE_PERIOD` left there. -/

namespace Sys2Proof.Machine

open Sys2Proof

/-- Induction along a finite trace: what each of its events keeps holds at its end if it holds at its start. -/
theorem runEvents_invariant {P : State → Prop} {es : List Instr} {s u : State}
    (hkeep : ∀ i ∈ es, ∀ v t, P v → exec i v = .next t → P t) (hrun : runEvents es s = .next u) (hs : P s) :
    P u := by
  induction es generalizing s with
  | nil =>
    cases hrun
    exact hs
  | cons i is ih =>
    obtain ⟨t, hexec, hrest⟩ := runEvents_cons_eq_next.mp hrun
    obtain ⟨hhead, htail⟩ := List.forall_mem_cons.mp hkeep
    exact ih htail hrest (hhead s t hs hexec)

section

variable {i : Instr} {s t : State}

/-- `INIT` is a step in `BOOT` only, so outside it no operation but `POR` moves `MODE` (R27). -/
theorem exec_mode_of_ne_boot (h : exec i s = .next t) (hboot : s.mode ≠ .boot) (hpor : i ≠ .por) :
    t.mode = s.mode := by
  obtain ⟨hen, rfl⟩ := exec_eq_next_iff.mp h
  have hinit : i ≠ .init := by
    rintro rfl
    exact hboot (enabled_init_iff.mp hen)
  exact effect_mode s hinit hpor

/-- R24: outside `BOOT` the shared cell has no writers but `POLL` and `POR`. -/
theorem exec_activePeriod_of_ne_boot (h : exec i s = .next t) (hboot : s.mode ≠ .boot) (hpor : i ≠ .por)
    (hpoll : ∀ b, i ≠ .poll b) : t.activePeriod = s.activePeriod := by
  have hframe : Reg.activePeriod ∉ writtenRegs i := by
    cases i with
    | por => exact absurd rfl hpor
    | init =>
      obtain ⟨hen, -⟩ := exec_eq_next_iff.mp h
      exact absurd (enabled_init_iff.mp hen) hboot
    | poll b => exact absurd rfl (hpoll b)
    | _ => simp [writtenRegs]
  exact BitVec.eq_of_toNat_eq (readReg_exec h hframe)

/-- R181: a `POLL` leaves a running block with the byte of the range it sampled in the cell. -/
theorem exec_poll_mode_and_activePeriod {b : Bool} (h : exec (.poll b) s = .next t) :
    t.mode = .run ∧ t.activePeriod = rangeByte (!b) s.basePeriod := by
  obtain ⟨hen, rfl⟩ := exec_eq_next_iff.mp h
  obtain ⟨hrun, -, -⟩ := enabled_poll_iff.mp hen
  exact ⟨hrun, rfl⟩

/-- R111, R112: an `INIT` that starts the block puts the base into the cell; it ends in `RUN` or in `HALT`. -/
theorem exec_init_mode_and_activePeriod (h : exec .init s = .next t) :
    t.mode ≠ .boot ∧ (t.mode = .run → t.activePeriod = t.basePeriod) := by
  obtain ⟨-, rfl⟩ := exec_eq_next_iff.mp h
  obtain ⟨_, _, p, k, -, he⟩ | ⟨c, -, he⟩ := initialise_cases s <;> simp [effect, he]

/-- R156: an entry happens in `RUN` and loads the timer from the cell. -/
theorem exec_isrEnter_mode_and_tmr (h : exec .isrEnter s = .next t) :
    s.mode = .run ∧ t.tmr = s.activePeriod := by
  obtain ⟨hen, rfl⟩ := exec_eq_next_iff.mp h
  obtain ⟨hrun, -⟩ := enabled_isrEnter_iff.mp hen
  exact ⟨hrun, rfl⟩

end

section

variable {es : List Instr} {a u w : State}

/-- From the first `INIT` on, a trace without `POLL` and `POR` leaves `MODE` and the shared cell alone. -/
theorem runEvents_mode_and_activePeriod (hrun : runEvents es a = .next u) (hboot : a.mode ≠ .boot)
    (hpor : Instr.por ∉ es) (hpoll : ∀ b, Instr.poll b ∉ es) :
    u.mode = a.mode ∧ u.activePeriod = a.activePeriod := by
  refine runEvents_invariant (P := fun s => s.mode = a.mode ∧ s.activePeriod = a.activePeriod)
    (fun i hi s t hs hexec => ?_) hrun ⟨rfl, rfl⟩
  obtain ⟨hmode, hcell⟩ := hs
  have hsboot : s.mode ≠ .boot := hmode ▸ hboot
  have hnotPor : i ≠ .por := ne_of_mem_of_not_mem hi hpor
  have hnotPoll : ∀ b, i ≠ .poll b := fun b => ne_of_mem_of_not_mem hi (hpoll b)
  exact ⟨(exec_mode_of_ne_boot hexec hsboot hnotPor).trans hmode,
    (exec_activePeriod_of_ne_boot hexec hsboot hnotPor hnotPoll).trans hcell⟩

/-- R67, R184: an entry that follows such a trace finds the block running since its start and loads the byte that
stood in the cell there. -/
theorem isrEnter_loads_activePeriod (hrun : runEvents es a = .next u) (henter : exec .isrEnter u = .next w)
    (hboot : a.mode ≠ .boot) (hpor : Instr.por ∉ es) (hpoll : ∀ b, Instr.poll b ∉ es) :
    a.mode = .run ∧ w.tmr = a.activePeriod := by
  obtain ⟨hmode, hcell⟩ := runEvents_mode_and_activePeriod hrun hboot hpor hpoll
  obtain ⟨hurun, hload⟩ := exec_isrEnter_mode_and_tmr henter
  exact ⟨hmode.symm.trans hurun, hload.trans hcell⟩

end

/-- Settles O36: the cell is kept from its writer to the entry. An `INIT` that took the configuration fault is no
writer, but then no entry follows: the entry shows that the block has run since `INIT`. -/
theorem handlerLoadsLatestWrite : Obligations.HandlerLoadsLatestWrite := by
  unfold Obligations.HandlerLoadsLatestWrite
  intro s a u w es hpor hpoll hrun henter
  refine ⟨fun b hwrite => ?poll, fun hwrite => ?init⟩
  case poll =>
    obtain ⟨hmode, hcell⟩ := exec_poll_mode_and_activePeriod hwrite
    obtain ⟨-, hload⟩ := isrEnter_loads_activePeriod hrun henter (by simp [hmode]) hpor hpoll
    exact hload.trans hcell
  case init =>
    obtain ⟨hboot, hcell⟩ := exec_init_mode_and_activePeriod hwrite
    obtain ⟨hmode, hload⟩ := isrEnter_loads_activePeriod hrun henter hboot hpor hpoll
    exact hload.trans (hcell hmode)

end Sys2Proof.Machine

/-! ## Proofs: the event words (`30_encoding.md`)

The decoder's checks read off the bits of a byte, decoding and encoding inverse to each other, when each operation
completes, the spelling of the events, and what the pseudo-event `HALF` does. -/

namespace Sys2Proof

/-! ### The fields of a byte (R88) -/

section

variable {w : Byte} {i : Instr}

theorem toNat_op_eventFields : (eventFields w).op.toNat = w.toNat / 16 := by
  have hlt : w.toNat < 256 := w.isLt
  simp only [eventFields, BitVec.extractLsb'_toNat, Nat.shiftRight_eq_div_pow]
  omega

theorem toNat_zero_eventFields : (eventFields w).zero.toNat = w.toNat / 2 % 8 := by
  simp [eventFields, Nat.shiftRight_eq_div_pow]

theorem toNat_b_eventFields : (eventFields w).b.toNat = w.toNat % 2 := by
  simp [eventFields]

/-- The three fields are all the bits of a byte. -/
theorem eventByte_eventFields (w : Byte) : eventByte (eventFields w) = w := by
  simp only [eventByte, eventFields]
  ext k hk
  simp only [BitVec.getElem_append]
  grind

theorem zeroClear_eventFields_iff : (eventFields w).zeroClear = true ↔ w.toNat / 2 % 8 = 0 := by
  rw [EventWord.zeroClear, beq_iff_eq, ← toNat_zero_eventFields]
  exact (BitVec.toNat_inj (y := 0#3)).symm

theorem opNamed_eventFields_iff : (eventFields w).opNamed = true ↔ w.toNat / 16 ≤ 9 := by
  rw [EventWord.opNamed, decide_eq_true_iff, ← toNat_op_eventFields]
  rfl

theorem operandAllowed_eventFields_iff :
    (eventFields w).operandAllowed = true ↔ w.toNat % 2 = 0 ∨ w.toNat / 16 = 3 := by
  rw [EventWord.operandAllowed, Bool.or_eq_true, beq_iff_eq, beq_iff_eq, ← toNat_b_eventFields,
    ← toNat_op_eventFields]
  exact or_congr (BitVec.toNat_inj (y := 0#1)).symm (BitVec.toNat_inj (y := 3#4)).symm

/-- The operand that the decoder passes on is the byte's lowest bit (R89). -/
theorem b_eventFields_eq : ((eventFields w).b == 1#1) = decide (w.toNat % 2 = 1) := by
  rw [Bool.eq_iff_iff, beq_iff_eq, decide_eq_true_iff, ← toNat_b_eventFields]
  exact (BitVec.toNat_inj (y := 1#1)).symm

/-! ### The table of operation codes (R90) -/

/-- The ten rows of R90's table in the order of their codes, `b` the operand of `POLL`. -/
def opTable (b : Bool) : List Instr :=
  [.por, .init, .tick, .poll b, .isrEnter, .isrToggle, .isrRsthi, .isrNop, .isrRstlo, .isrRet]

/-- The decoder reads the code as an index into the table; a code past its end names no operation. -/
theorem opInstr_eq_ok_iff {op : BitVec 4} {b : Bool} :
    opInstr op b = .ok i ↔ (opTable b)[op.toNat]? = some i := by
  unfold opInstr
  split
  case h_11 hnamed =>
    have hlen : (opTable b).length ≤ op.toNat := by
      show 10 ≤ op.toNat
      grind
    simp [List.getElem?_eq_none hlen]
  all_goals
    rename_i hop
    simp [opTable, hop]

/-- The fields of the operation in row `n`: its code is `n`, and only row 3, `POLL`, uses the operand. -/
theorem instrFields_of_opTable {n : Nat} {b : Bool} (h : (opTable b)[n]? = some i) :
    (instrFields i).op.toNat = n ∧ (instrFields i).zero = 0#3 ∧
      (instrFields i).b = if n = 3 then levelBit b else 0#1 := by
  obtain ⟨hn, rfl⟩ := List.getElem?_eq_some_iff.mp h
  replace hn : n < 10 := hn
  interval_cases n <;> exact ⟨rfl, rfl, rfl⟩

@[simp] theorem levelBit_beq_one (b : BitVec 1) : levelBit (b == 1#1) = b := by
  obtain rfl | rfl := BitVec.eq_zero_or_eq_one b <;> rfl

/-! ### The decoder's checks (R94) -/

theorem EventWord.eq_of_fields {e f : EventWord} (hop : e.op = f.op) (hzero : e.zero = f.zero) (hb : e.b = f.b) :
    e = f := by
  cases e
  cases f
  simp_all

theorem EventWord.wellFormed_iff {e : EventWord} :
    e.wellFormed = true ↔ e.zeroClear = true ∧ e.opNamed = true ∧ e.operandAllowed = true := by
  simp [EventWord.wellFormed, and_assoc]

/-- A byte decodes to `i` exactly if it passes the three checks and `i` is its row of R90's table. -/
theorem decodeWord_eq_ok_iff_opTable : decodeWord w = .ok i ↔ (eventFields w).wellFormed = true ∧
    (opTable ((eventFields w).b == 1#1))[(eventFields w).op.toNat]? = some i := by
  rw [← opInstr_eq_ok_iff, EventWord.wellFormed_iff]
  unfold decodeWord
  grind

theorem decodeWord_of_zeroField (h : (eventFields w).zeroClear = false) : decodeWord w = .error .zeroField := by
  simp [decodeWord, h]

theorem decodeWord_of_opCode (hzero : (eventFields w).zeroClear = true) (h : (eventFields w).opNamed = false) :
    decodeWord w = .error .opCode := by
  simp [decodeWord, hzero, h]

theorem decodeWord_of_operandBit (hzero : (eventFields w).zeroClear = true) (hop : (eventFields w).opNamed = true)
    (h : (eventFields w).operandAllowed = false) : decodeWord w = .error .operandBit := by
  simp [decodeWord, hzero, hop, h]

/-! ### Decoding and encoding (R87, R94) -/

/-- In a well-formed word the row of its code has the word's own fields: no bit is left over. -/
theorem instrFields_eq_of_wellFormed {e : EventWord} (hwf : e.wellFormed = true)
    (h : (opTable (e.b == 1#1))[e.op.toNat]? = some i) : instrFields i = e := by
  obtain ⟨hop, hzero, hb⟩ := instrFields_of_opTable h
  obtain ⟨hclear, -, hallowed⟩ := EventWord.wellFormed_iff.mp hwf
  have hop' : (instrFields i).op = e.op := BitVec.eq_of_toNat_eq hop
  have hzero' : (instrFields i).zero = e.zero := hzero.trans (beq_iff_eq.mp hclear).symm
  have hb' : (instrFields i).b = e.b := by
    rw [hb, levelBit_beq_one]
    split
    · rfl
    case isFalse hnotPoll =>
      have hne : e.op ≠ 3#4 := fun heq => hnotPoll (by rw [heq]; rfl)
      simp only [EventWord.operandAllowed, Bool.or_eq_true, beq_iff_eq, hne, or_false] at hallowed
      exact hallowed.symm
  exact EventWord.eq_of_fields hop' hzero' hb'

/-- Decoding and encoding are inverse to each other on one word. -/
theorem decodeWord_eq_ok_iff : decodeWord w = .ok i ↔ encodeWord i = w := by
  constructor
  · intro h
    obtain ⟨hwf, hrow⟩ := decodeWord_eq_ok_iff_opTable.mp h
    rw [encodeWord, instrFields_eq_of_wellFormed hwf hrow, eventByte_eventFields]
  · rintro rfl
    exact decodeWord_encodeWord i

/-- A sequence decodes to `i` exactly if it begins with the one byte of `i`. -/
theorem decode_eq_ok_iff {bytes rest : List Byte} :
    decode bytes = .ok (i, rest) ↔ bytes = encode i ++ rest := by
  cases bytes with
  | nil => simp [decode, encode]
  | cons v tail =>
    have hhead : v = encodeWord i ↔ decodeWord v = .ok i := by rw [decodeWord_eq_ok_iff, eq_comm]
    simp only [encode, List.cons_append, List.nil_append, List.cons.injEq, hhead, decode]
    cases decodeWord v <;> simp

end

/-- Settles O4: both directions of one equivalence. The first needs no well-formedness, which every operation has. -/
theorem streamDecodeEncodeAgree : Obligations.StreamDecodeEncodeAgree := by
  unfold Obligations.StreamDecodeEncodeAgree
  exact ⟨fun _ _ _ => decode_eq_ok_iff.mpr rfl, fun _ _ _ => decode_eq_ok_iff.mp⟩

/-- Settles O3: each check is a fact about the bits of the byte; past the three of them the code is an index into
R90's table. -/
theorem decodeChecksInOrder : Obligations.DecodeChecksInOrder := by
  unfold Obligations.DecodeChecksInOrder
  intro w
  refine ⟨fun hzero => ?zeroField, fun hzero hop => ?opCode, fun hzero hop hb hpoll => ?operandBit,
    fun hzero hop hb => ?accepted⟩
  case zeroField =>
    refine decodeWord_of_zeroField (Bool.eq_false_iff.mpr ?_)
    rwa [Ne, zeroClear_eventFields_iff]
  case opCode =>
    refine decodeWord_of_opCode (zeroClear_eventFields_iff.mpr hzero) (Bool.eq_false_iff.mpr ?_)
    rw [Ne, opNamed_eventFields_iff]
    omega
  case operandBit =>
    refine decodeWord_of_operandBit (zeroClear_eventFields_iff.mpr hzero) (opNamed_eventFields_iff.mpr hop)
      (Bool.eq_false_iff.mpr ?_)
    rw [Ne, operandAllowed_eventFields_iff]
    omega
  case accepted =>
    have hwf : (eventFields w).wellFormed = true := EventWord.wellFormed_iff.mpr
      ⟨zeroClear_eventFields_iff.mpr hzero, opNamed_eventFields_iff.mpr hop, operandAllowed_eventFields_iff.mpr hb⟩
    have hlen : w.toNat / 16 < (opTable (decide (w.toNat % 2 = 1))).length := Nat.lt_succ_of_le hop
    have hrow := List.getElem?_eq_getElem hlen
    have hdecode : decodeWord w = .ok (opTable (decide (w.toNat % 2 = 1)))[w.toNat / 16] := by
      rw [decodeWord_eq_ok_iff_opTable, b_eventFields_eq, toNat_op_eventFields]
      exact ⟨hwf, hrow⟩
    have hencode := decodeWord_eq_ok_iff.mp hdecode
    exact ⟨_, hrow, hdecode, hencode, fun rest => decode_eq_ok_iff.mpr (by rw [encode, hencode]; rfl)⟩

/-- Settles O1: in each line the word on the left is the encoding of the operation on the right. -/
theorem specWordsDecode : Obligations.SpecWordsDecode := by
  unfold Obligations.SpecWordsDecode
  simp only [decodeWord_eq_ok_iff]
  decide

end Sys2Proof

namespace Sys2Proof.Machine

open Sys2Proof

/-! ### The eleven words (R91) -/

theorem mem_allEvents (i : Instr) : i ∈ allEvents := by
  cases i with
  | poll b => cases b <;> simp [allEvents]
  | _ => simp [allEvents]

/-- A byte is an event word exactly if it encodes one of the eleven events. -/
theorem exists_decodeWord_eq_ok_iff {w : Byte} : (∃ i, decodeWord w = .ok i) ↔ w ∈ allEvents.map encodeWord := by
  simp [decodeWord_eq_ok_iff, mem_allEvents]

/-- A step whose trace begins with a byte that is no event word refuses it, for the decoder's reason (R91). -/
theorem step_cons_of_error {s : State} {w : Byte} {rest : List Byte} {e : BadWord}
    (ht : s.trace = w :: rest) (hd : decodeWord w = .error e) : step s = .refused (.invalidWord e) := by
  have hf : fetch s = .error (.invalidWord e) := by rw [fetch_cons s w rest ht, hd]
  rw [step, hf]

theorem isOk_decodeWord_iff {w : Byte} : (decodeWord w).isOk = true ↔ ∃ i, encodeWord i = w := by
  simp only [← decodeWord_eq_ok_iff]
  cases decodeWord w <;> simp [Except.isOk, Except.toBool]

/-- The bytes that decode are, up to order, the eleven different words of the events. -/
theorem filter_isOk_perm : List.Perm ((List.range 256).filter (fun n => (decodeWord (BitVec.ofNat 8 n)).isOk))
    (allEvents.map (fun i => (encodeWord i).toNat)) := by
  rw [List.perm_ext_iff_of_nodup (List.nodup_range.filter _) (by decide)]
  intro n
  simp only [List.mem_filter, List.mem_range, isOk_decodeWord_iff, List.mem_map, mem_allEvents, true_and]
  constructor
  · rintro ⟨hlt, i, hi⟩
    exact ⟨i, by rw [hi, BitVec.toNat_ofNat, Nat.mod_eq_of_lt hlt]⟩
  · rintro ⟨i, rfl⟩
    exact ⟨(encodeWord i).isLt, i, by rw [BitVec.ofNat_toNat, BitVec.setWidth_eq]⟩

/-- Of the 256 bytes all but eleven are refused. -/
theorem countP_invalid_bytes :
    (List.range 256).countP (fun n => !(decodeWord (BitVec.ofNat 8 n)).isOk) = 245 := by
  have hsum := List.length_eq_countP_add_countP (fun n => (decodeWord (BitVec.ofNat 8 n)).isOk) (l := List.range 256)
  have hvalid : (List.range 256).countP (fun n => (decodeWord (BitVec.ofNat 8 n)).isOk) = 11 := by
    rw [List.countP_eq_length_filter, filter_isOk_perm.length_eq]
    rfl
  simp only [List.length_range, Bool.not_eq_true, Bool.decide_eq_false] at hsum
  omega

/-- Settles O2: whether a byte is a word is whether it encodes an event, and the fetch passes the
decoder's reason on. -/
theorem decoderAcceptsElevenWords : Obligations.DecoderAcceptsElevenWords := by
  unfold Obligations.DecoderAcceptsElevenWords
  refine ⟨fun w => exists_decodeWord_eq_ok_iff, countP_invalid_bytes, fun s w rest ht hw => ?_⟩
  cases hd : decodeWord w with
  | ok i => exact absurd (exists_decodeWord_eq_ok_iff.mp ⟨i, hd⟩) hw
  | error e => exact ⟨e, step_cons_of_error ht hd⟩

/-! ### The spelling of the events (R96) -/

theorem eventOfWords_eventText (i : Instr) : eventOfWords (eventText i) = some i := by
  cases i with
  | poll b => cases b <;> rfl
  | _ => rfl

/-- What is read as an event is its own spelling. -/
theorem eventText_of_eventOfWords {ws : List Text} {i : Instr} (h : eventOfWords ws = some i) : eventText i = ws :=
  beq_iff_eq.mp (List.find?_some (p := fun i => eventText i == ws) h)

/-- A pseudo-event is no event, whatever its words. -/
theorem pseudoOfWords_ne_event (ws : List Text) (i : Instr) : pseudoOfWords ws ≠ some (.event i) := by
  unfold pseudoOfWords
  grind [Option.map_eq_some_iff]

theorem configOfWords_ne_event (r f p : Text) (e : PseudoEvent) : configOfWords r f p ≠ some (.event e) := by
  unfold configOfWords
  split <;> simp

/-- A `PARAM` header is no event, whatever settings have been read before. -/
theorem paramOfWords_ne_event (ws : List Text) (n : Option Nat) (g : Option Bool) (t : Option Byte)
    (e : PseudoEvent) : paramOfWords ws n g t ≠ some (.event e) := by
  induction ws generalizing n g t with
  | nil => simp [paramOfWords]
  | cons w ws ih =>
    unfold paramOfWords
    grind

/-- Words are read as an event exactly if they are its spelling: pseudo-events and headers are other items. -/
theorem itemOfWords_eq_event_iff {ws : List Text} {i : Instr} :
    itemOfWords ws = some (.event (.event i)) ↔ ws = eventText i := by
  constructor
  · intro h
    unfold itemOfWords at h
    cases hevent : eventOfWords ws with
    | some j =>
      obtain rfl : j = i := by simpa [hevent] using h
      exact (eventText_of_eventOfWords hevent).symm
    | none =>
      cases hpseudo : pseudoOfWords ws with
      | some e =>
        obtain rfl : e = .event i := by simpa [hevent, hpseudo] using h
        exact absurd hpseudo (pseudoOfWords_ne_event ws i)
      | none =>
        simp only [hevent, hpseudo] at h
        split at h
        case h_1 c r f p =>
          split at h
          · exact absurd h (configOfWords_ne_event r f p _)
          · split at h
            · exact absurd h (paramOfWords_ne_event _ _ _ _ _)
            · cases h
        case h_2 c rest _ =>
          split at h
          · exact absurd h (paramOfWords_ne_event _ _ _ _ _)
          · cases h
        case h_3 => cases h
  · rintro rfl
    simp only [itemOfWords, eventOfWords_eventText]

/-- Settles O5: the words read as an event are the spellings of the eleven events. -/
theorem eventTextReadsBack : Obligations.EventTextReadsBack := by
  unfold Obligations.EventTextReadsBack
  simp only [itemOfWords_eq_event_iff]
  refine ⟨rfl, rfl, rfl, rfl, rfl, rfl, rfl, rfl, rfl, rfl, rfl, ?_⟩
  rintro ws i rfl
  exact List.mem_map_of_mem (f := eventText) (mem_allEvents i)

/-! ### Reload bytes (R82) -/

/-- The extended byte of a legal `q` is the base byte of `10 * q`, which still fits the timer. -/
theorem extendedByte_neg8 {q : Nat} (hpos : 1 ≤ q) (hle : q ≤ 25) :
    extendedByte (neg8 q) = neg8 (10 * q % 256) := by
  apply BitVec.eq_of_toNat_eq
  rw [toNat_extendedByte, toNat_neg8 hpos (by omega), toNat_neg8 (by omega) (by omega)]
  omega

/-- Settles O32: the ticks of the two bytes, and the number the extended byte spells. -/
theorem reloadBytesTimeTheirTicks : Obligations.ReloadBytesTimeTheirTicks := by
  unfold Obligations.ReloadBytesTimeTheirTicks
  refine ⟨fun q hpos hle => ticks_neg8 hpos hle, fun q hpos hle => ⟨extendedByte_neg8 hpos hle, ?_,
    ticks_extendedByte_neg8 hpos hle⟩⟩
  rw [extendedByte_neg8 hpos hle, toNat_neg8 (by omega) (by omega)]
  omega

/-! ### The operation that is due (R95) -/

/-- An operation completes exactly where it is enabled. -/
theorem exists_exec_eq_next_iff {i : Instr} {s : State} : (∃ t, exec i s = .next t) ↔ enabled i s = true := by
  simp [exec_eq_next_iff]

/-- The one main-loop or handler operation a running block can perform, a `POLL` standing for both its levels. -/
def dueOperation (s : State) : Instr :=
  match s.seq with
  | .main => if interruptPending s then .isrEnter else .poll false
  | .sToggle => .isrToggle
  | .sRsthi => .isrRsthi
  | .sDelay => if s.nopCnt = 0 then .isrRstlo else .isrNop
  | .sRet => .isrRet

theorem isHandlerStep_or_poll_dueOperation (s : State) :
    isHandlerStep (dueOperation s) = true ∨ dueOperation s = .poll false := by
  unfold dueOperation
  grind [isHandlerStep]

/-- In `RUN` the due operation can be performed: a pending interrupt decides in the main loop, `NOPCNT` in the delay. -/
theorem enabled_dueOperation {s : State} (hrun : s.mode = .run) : enabled (dueOperation s) s = true := by
  unfold dueOperation
  split
  case h_1 => split <;> simp_all [interruptPending]
  case h_4 => split <;> simp_all [Nat.pos_iff_ne_zero]
  all_goals simp_all

/-- A main-loop or handler operation that can be performed is the due one. -/
theorem eq_dueOperation_of_enabled {s : State} {i : Instr} (hi : isHandlerStep i = true ∨ i = .poll false)
    (hen : enabled i s = true) : i = dueOperation s := by
  obtain hi | rfl := hi
  · cases i <;> simp_all [dueOperation, isHandlerStep, interruptPending, Nat.pos_iff_ne_zero]
  · obtain ⟨-, hseq, hpending⟩ := enabled_poll_iff.mp hen
    simp [dueOperation, hseq, interruptPending, hpending]

/-- Outside `RUN` no main-loop or handler operation is enabled (R95). -/
theorem mode_eq_run_of_enabled {s : State} {i : Instr} (hi : isHandlerStep i = true ∨ ∃ b, i = .poll b)
    (hen : enabled i s = true) : s.mode = .run := by
  cases i <;> simp_all [isHandlerStep]

/-- Settles O9: completing is being enabled, and in `RUN` exactly the due operation is. -/
theorem operationCompletesExactlyWhenEnabled : Obligations.OperationCompletesExactlyWhenEnabled := by
  unfold Obligations.OperationCompletesExactlyWhenEnabled
  intro s
  simp only [exists_exec_eq_next_iff, ne_eq]
  refine ⟨⟨enabled_por, enabled_init_iff, enabled_tick, fun _ => enabled_poll_iff, enabled_isrEnter_iff,
    enabled_isrToggle_iff, enabled_isrRsthi_iff, enabled_isrNop_iff, enabled_isrRstlo_iff, enabled_isrRet_iff⟩,
    fun hrun => ?run, fun hidle j t hj hexec => ?idle⟩
  case run =>
    exact ⟨dueOperation s, isHandlerStep_or_poll_dueOperation s, enabled_dueOperation hrun,
      fun _ hj hen => eq_dueOperation_of_enabled hj hen⟩
  case idle =>
    obtain ⟨hen, -⟩ := exec_eq_next_iff.mp hexec
    exact hidle (mode_eq_run_of_enabled hj hen)

/-! ### Traces of operations that are enabled -/

/-- An enabled operation performs its writes. -/
theorem exec_of_enabled {i : Instr} {s : State} (h : enabled i s = true) : exec i s = .next (effect i s) :=
  exec_eq_next_iff.mpr ⟨h, rfl⟩

/-- An enabled event goes on with the rest of the trace from its writes. -/
theorem runEvents_cons_of_enabled {i : Instr} {is : List Instr} {s : State} (h : enabled i s = true) :
    runEvents (i :: is) s = runEvents is (effect i s) := by
  rw [runEvents, exec_of_enabled h]

theorem runEvents_append_of_eq_next {as bs : List Instr} {s t : State} (h : runEvents as s = .next t) :
    runEvents (as ++ bs) s = runEvents bs t := by
  induction as generalizing s with
  | nil =>
    cases h
    rfl
  | cons a as ih =>
    obtain ⟨v, hexec, hrest⟩ := runEvents_cons_eq_next.mp h
    rw [List.cons_append, runEvents, hexec]
    exact ih hrest

/-- One tick brings the expiry one tick nearer, or is the expiry. -/
theorem expires_or_ticks_le (v : Byte) (n : Nat) :
    (expires v || decide (ticks (v + 1#8) ≤ n)) = decide (ticks v ≤ n + 1) := by
  have hlt : v.toNat < 256 := v.isLt
  by_cases hv : v = 0xFF#8
  · subst hv
    simp [expires, ticks]
  · have hne : v.toNat ≠ 255 := fun h => hv (BitVec.eq_of_toNat_eq h)
    have hsucc : (v + 1#8).toNat = v.toNat + 1 := by
      rw [BitVec.toNat_add, BitVec.toNat_ofNat]
      omega
    have hexp : expires v = false := by simp [expires, hv]
    rw [hexp, Bool.false_or, decide_eq_decide, ticks, ticks, hsucc]
    omega

/-- `TICK*n` (R141, R142): the count moves on by `n`, and the flag is set once the ticks to go have passed. -/
theorem runEvents_replicate_tick (n : Nat) (s : State) : runEvents (List.replicate n .tick) s =
    .next { s with
      tif := s.tif || decide (ticks s.tmr ≤ n)
      tmr := s.tmr + BitVec.ofNat 8 n } := by
  induction n generalizing s with
  | zero =>
    have hpos : ¬ticks s.tmr ≤ 0 := by
      have hlt : s.tmr.toNat < 256 := s.tmr.isLt
      rw [ticks]
      omega
    simp [hpos]
  | succ n ih =>
    have hflag : (tifAfterTick s.tmr s.tif || decide (ticks (s.tmr + 1#8) ≤ n)) =
        (s.tif || decide (ticks s.tmr ≤ n + 1)) := by
      rw [tifAfterTick, Bool.or_assoc, expires_or_ticks_le]
    have hcount : s.tmr + 1#8 + BitVec.ofNat 8 n = s.tmr + BitVec.ofNat 8 (n + 1) := by
      rw [BitVec.add_assoc, Nat.add_comm n 1, BitVec.ofNat_add]
    rw [List.replicate_succ, runEvents_cons_of_enabled enabled_tick, ih]
    show (Host.Outcome.next { s with
      tif := tifAfterTick s.tmr s.tif || decide (ticks (s.tmr + 1#8) ≤ n)
      tmr := s.tmr + 1#8 + BitVec.ofNat 8 n } : Result) = _
    rw [hflag, hcount]

/-- The ticks to go end in the expiry, which leaves the flag set and the count at 0 (R141). -/
theorem runEvents_ticks_to_expiry (s : State) :
    runEvents (List.replicate (ticks s.tmr) .tick) s = .next { s with tif := true, tmr := 0#8 } := by
  have hflag : (s.tif || decide (ticks s.tmr ≤ ticks s.tmr)) = true := by simp
  have hcount : s.tmr + BitVec.ofNat 8 (ticks s.tmr) = 0#8 := by
    apply BitVec.eq_of_toNat_eq
    have hlt : s.tmr.toNat < 256 := s.tmr.isLt
    simp only [BitVec.toNat_add, BitVec.toNat_ofNat, ticks]
    omega
  rw [runEvents_replicate_tick, hflag, hcount]

/-- The no-ops of the reset pulse (R161): each of them counts `NOPCNT` down. -/
theorem runEvents_replicate_isrNop {n : Nat} {s : State} (hrun : s.mode = .run) (hseq : s.seq = .sDelay)
    (hn : n ≤ s.nopCnt) :
    runEvents (List.replicate n .isrNop) s = .next { s with nopCnt := s.nopCnt - n } := by
  induction n generalizing s with
  | zero => rfl
  | succ n ih =>
    have hen : enabled .isrNop s = true := enabled_isrNop_iff.mpr ⟨hrun, hseq, by omega⟩
    rw [List.replicate_succ, runEvents_cons_of_enabled hen,
      ih (s := effect .isrNop s) hrun hseq (Nat.le_sub_one_of_lt hn)]
    simp [effect, delayNop, Nat.sub_sub, Nat.add_comm]

/-! ### The whole handler with no tick inside it (R155, R164) -/

section

variable {s : State}

/-- Entry and toggle lead to the gate's side of the handler, the flag served and the timer reloaded. -/
theorem runEvents_isrEnter_isrToggle (is : List Instr) (hrun : s.mode = .run) (hseq : s.seq = .main)
    (htif : s.tif = true) (htie : s.tie = true) :
    runEvents (.isrEnter :: .isrToggle :: is) s = runEvents is (toggleGate (takeInterrupt s)) :=
  calc
    runEvents (.isrEnter :: .isrToggle :: is) s = runEvents (.isrToggle :: is) (takeInterrupt s) :=
      runEvents_cons_of_enabled (enabled_isrEnter_iff.mpr ⟨hrun, hseq, htif, htie⟩)
    _ = runEvents is (toggleGate (takeInterrupt s)) :=
      runEvents_cons_of_enabled (enabled_isrToggle_iff.mpr ⟨hrun, rfl⟩)

/-- The reset pulse (R160 to R162) leaves the pin low again and no no-ops over. -/
theorem runEvents_pulse (hrun : s.mode = .run) (hseq : s.seq = .sRsthi) :
    runEvents ([.isrRsthi] ++ List.replicate s.launch.rstPulseNops .isrNop ++ [.isrRstlo, .isrRet]) s =
      .next { s with rstOut := false, nopCnt := 0, seq := .main } := by
  have hhigh : runEvents [.isrRsthi] s = .next (raiseReset s) :=
    runEvents_cons_of_enabled (enabled_isrRsthi_iff.mpr ⟨hrun, hseq⟩)
  have hnops : runEvents (List.replicate s.launch.rstPulseNops .isrNop) (raiseReset s) =
      .next { raiseReset s with nopCnt := 0 } := by
    have hle : s.launch.rstPulseNops ≤ (raiseReset s).nopCnt := Nat.le_refl _
    rw [runEvents_replicate_isrNop (s := raiseReset s) hrun rfl hle, raiseReset_nopCnt, Nat.sub_self]
  rw [List.append_assoc, runEvents_append_of_eq_next hhigh, runEvents_append_of_eq_next hnops]
  calc
    runEvents [.isrRstlo, .isrRet] { raiseReset s with nopCnt := 0 }
      = runEvents [.isrRet] (lowerReset { raiseReset s with nopCnt := 0 }) :=
        runEvents_cons_of_enabled (enabled_isrRstlo_iff.mpr ⟨hrun, rfl, rfl⟩)
    _ = .next (returnFromInterrupt (lowerReset { raiseReset s with nopCnt := 0 })) :=
        runEvents_cons_of_enabled (enabled_isrRet_iff.mpr ⟨hrun, rfl⟩)

/-- R164: from a pending interrupt the handler the gate calls for runs to its end and flips the gate. -/
theorem runEvents_handlerEvents (hrun : s.mode = .run) (hseq : s.seq = .main) (htif : s.tif = true)
    (htie : s.tie = true) (hrst : s.rstOut = false) (hnop : s.nopCnt = 0) :
    runEvents (handlerEvents s.launch.rstPulseNops s.gate) s =
      .next { s with tif := false, tmr := s.activePeriod, gate := !s.gate } := by
  cases hgate : s.gate with
  | true =>
    have hret : enabled .isrRet (toggleGate (takeInterrupt s)) = true :=
      enabled_isrRet_iff.mpr ⟨hrun, by simp [hgate]⟩
    rw [handlerEvents, if_pos rfl, closeEvents, runEvents_isrEnter_isrToggle _ hrun hseq htif htie,
      runEvents_cons_of_enabled hret]
    simp [runEvents, effect, returnFromInterrupt, toggleGate, takeInterrupt, hgate, hseq]
  | false =>
    have hrsthi : (toggleGate (takeInterrupt s)).seq = .sRsthi := by simp [hgate]
    have hpulse := runEvents_pulse (s := toggleGate (takeInterrupt s)) hrun hrsthi
    simp only [toggleGate_launch, takeInterrupt_launch, List.cons_append, List.nil_append] at hpulse
    simp only [handlerEvents, openEvents, Bool.false_eq_true, if_false, List.cons_append, List.nil_append]
    rw [runEvents_isrEnter_isrToggle _ hrun hseq htif htie, hpulse]
    simp [toggleGate, takeInterrupt, hgate, hseq, hrst, hnop]

/-- A trace of one pseudo-event is its expansion (R97). -/
theorem runPseudo_singleton (e : PseudoEvent) (s : State) :
    runPseudo [e] s = runEvents (expand s.launch.rstPulseNops s.gate e) s := by
  unfold runPseudo
  cases runEvents (expand s.launch.rstPulseNops s.gate e) s <;> rfl

end

/-- Settles O45: the ticks to go end in the expiry, whatever the flag was, and the handler serves it at once. -/
theorem halfPeriodFlipsGate : Obligations.HalfPeriodFlipsGate := by
  unfold Obligations.HalfPeriodFlipsGate
  intro s hrun hseq htie hrst hnop
  rw [runPseudo_singleton, expand, runEvents_append_of_eq_next (runEvents_ticks_to_expiry s)]
  exact runEvents_handlerEvents (s := { s with tif := true, tmr := 0#8 }) hrun hseq rfl htie hrst hnop

end Sys2Proof.Machine

/-! ## Proofs: the Period Calculator (`40_period_calculator.md`)

The prescaler's codes, then one characterisation of the inputs `pcalc` accepts, from which the closed form and
the other readings follow; the 32-bit calculator line by line; last, `INIT` on the calculator's answer. -/

namespace Sys2Proof.Machine

open Sys2Proof

/-! ### The prescaler's code (R80, R81) -/

section

variable {p : Nat} {k : BitVec 3}

/-- The code says which power of two the ratio is. -/
theorem prescCode_eq_some_iff : prescCode p = some k ↔ p = 2 ^ (k.toNat + 1) := by
  constructor
  · unfold prescCode
    split <;> rintro ⟨⟩ <;> rfl
  · rintro rfl
    revert k
    decide

/-- A ratio has a code exactly if it is legal. -/
theorem exists_prescCode_eq_some_iff : (∃ k, prescCode p = some k) ↔ p ∈ legalPrescalers := by
  constructor
  · rintro ⟨k, hk⟩
    have hpow : ∀ c : BitVec 3, 2 ^ (c.toNat + 1) ∈ legalPrescalers := by decide
    exact prescCode_eq_some_iff.mp hk ▸ hpow k
  · have hcode : ∀ r ∈ legalPrescalers, (prescCode r).isSome = true := by decide
    exact fun hp => Option.isSome_iff_exists.mp (hcode p hp)

theorem prescCode_eq_none_iff : prescCode p = none ↔ p ∉ legalPrescalers := by
  simp [← exists_prescCode_eq_some_iff, Option.eq_none_iff_forall_ne_some]

/-- R81: the code is `log2(PRESC) - 1`. -/
theorem log2_eq_of_prescCode (h : prescCode p = some k) : Nat.log2 p - 1 = k.toNat := by
  rw [prescCode_eq_some_iff.mp h, Nat.log2_two_pow, Nat.add_sub_cancel]

theorem prescCode_pos (h : prescCode p = some k) : 0 < p := by
  rw [prescCode_eq_some_iff.mp h]
  exact Nat.two_pow_pos _

end

/-- Settles O29: a legal ratio is the power of two its code names, so dividing by it shifts and masks. -/
theorem prescalerDivisionIsShift : Obligations.PrescalerDivisionIsShift := by
  unfold Obligations.PrescalerDivisionIsShift
  refine ⟨fun p => exists_prescCode_eq_some_iff, fun p p' ps hp hp' => ?_, fun raw p ps hp => ?_⟩
  · rw [prescCode_eq_some_iff.mp hp, prescCode_eq_some_iff.mp hp']
  · obtain rfl := prescCode_eq_some_iff.mp hp
    exact ⟨rfl, (Nat.shiftRight_eq_div_pow _ _).symm, (Nat.and_two_pow_sub_one_eq_mod _ _).symm⟩

/-! ### The order of the checks (R113, R115) -/

/-- The byte of a quotient in range needs no reduction modulo 256. -/
theorem neg8_of_lt {q : Nat} (h : q < 256) : neg8 q = BitVec.ofNat 8 (256 - q) := by
  rw [neg8, Nat.mod_eq_of_lt h]

/-- Steps 2 to 4 as a chain of conditions, the prescaler's code spelled out. -/
theorem pcalcQuotient_eq (raw p : Nat) : pcalcQuotient raw p =
    if p ∉ legalPrescalers then .invalid .prescUnsupported
    else if raw % p ≠ 0 then .invalid .notDivisible
    else if raw / p > 25 then .invalid .quotientRange
    else .valid raw (raw / p) (BitVec.ofNat 8 (256 - raw / p)) (BitVec.ofNat 3 (Nat.log2 p - 1)) := by
  unfold pcalcQuotient
  cases hk : prescCode p with
  | none => rw [if_pos (prescCode_eq_none_iff.mp hk)]
  | some k =>
    rw [if_neg (not_not.mpr (exists_prescCode_eq_some_iff.mp ⟨k, hk⟩)), log2_eq_of_prescCode hk,
      BitVec.ofNat_toNat, BitVec.setWidth_eq]
    refine ite_congr rfl (fun _ => rfl) fun _ => ite_congr rfl (fun _ => rfl) fun hmax => ?_
    rw [neg8_of_lt (by omega)]

/-- Settles O25: each line of R113 is one of `pcalc`'s checks, or a run of checks with one cause. -/
theorem pcalcFirstFailingLineDecides : Obligations.PcalcFirstFailingLineDecides := by
  unfold Obligations.PcalcFirstFailingLineDecides
  refine ⟨⟨rfl, rfl, rfl, rfl, rfl⟩, fun ref fs p => ?_⟩
  simp only [ite_or, pcalc, pcalcRaw, pcalcQuotient_eq]
  rfl

/-! ### The inputs it accepts (R117) -/

section

variable {ref fs p raw q : Nat} {b : Byte} {k : BitVec 3}

/-- `t2` of R113 divides by 1,000,000 and then by 4, the `raw` of R117 by 4,000,000. -/
theorem rawOf_eq (ref fs : Nat) : rawOf ref fs = ref / 1000000 / 4 * 2048000 / (fs / 1000) := by
  rw [Nat.div_div_eq_div_mul, rawOf]

/-- R117's seven conditions in the spelling of `pcalc`'s checks: a remainder of 0 for each exact division. -/
theorem legal_iff : Legal ref fs p ↔
    (4000000 ≤ ref ∧ ref % 1000000 = 0) ∧ ref / 1000000 % 4 = 0 ∧ (fs % 1000 = 0 ∧ fs / 1000 ≠ 0) ∧
      ref / 1000000 / 4 * 2048000 % (fs / 1000) = 0 ∧ p ∈ legalPrescalers ∧ rawOf ref fs % p = 0 ∧
      rawOf ref fs / p ≤ 25 := by
  have hfs : 1000 ≤ fs ↔ fs / 1000 ≠ 0 := by omega
  simp only [← Nat.dvd_iff_mod_eq_zero, ← hfs, Nat.div_div_eq_div_mul]
  exact ⟨fun ⟨href, hfour, hkilo, hraw, hp, hdiv, hmax⟩ => ⟨href, hfour, hkilo, hraw, hp, hdiv, hmax⟩,
    fun ⟨href, hfour, hkilo, hraw, hp, hdiv, hmax⟩ => ⟨href, hfour, hkilo, hraw, hp, hdiv, hmax⟩⟩

/-- `pcalc` accepts the legal configurations, with R117's `raw` and its quotient by the prescaler. -/
theorem pcalc_eq_valid_iff_legal : pcalc ref fs p = .valid raw q b k ↔
    Legal ref fs p ∧ prescCode p = some k ∧ raw = rawOf ref fs ∧ q = raw / p ∧ b = neg8 q := by
  rw [pcalc_eq_valid_iff, pcalcRaw_eq_valid_iff, pcalcQuotient_eq_valid_iff, legal_iff, ← rawOf_eq]
  constructor
  · rintro ⟨href, hmega, hfour, hkilo, hfs, hraw, hk, hdiv, hmax, rfl, rfl, rfl⟩
    exact ⟨⟨⟨href, hmega⟩, hfour, ⟨hkilo, hfs⟩, hraw, exists_prescCode_eq_some_iff.mp ⟨k, hk⟩, hdiv, hmax⟩,
      hk, rfl, rfl, rfl⟩
  · rintro ⟨⟨⟨href, hmega⟩, hfour, ⟨hkilo, hfs⟩, hraw, -, hdiv, hmax⟩, hk, rfl, rfl, rfl⟩
    exact ⟨href, hmega, hfour, hkilo, hfs, hraw, hk, hdiv, hmax, rfl, rfl, rfl⟩

theorem exists_pcalc_eq_valid_iff_legal :
    (∃ raw q b k, pcalc ref fs p = .valid raw q b k) ↔ Legal ref fs p := by
  simp only [pcalc_eq_valid_iff_legal]
  constructor
  · rintro ⟨_, _, _, _, hlegal, -⟩
    exact hlegal
  · intro hlegal
    obtain ⟨k, hk⟩ := exists_prescCode_eq_some_iff.mpr hlegal.prescLegal
    exact ⟨_, _, _, k, hlegal, hk, rfl, rfl, rfl⟩

/-- The prescaler's division is exact. -/
theorem pcalc_quotient_mul (h : pcalc ref fs p = .valid raw q b k) : q * p = raw := by
  obtain ⟨hlegal, -, rfl, rfl, -⟩ := pcalc_eq_valid_iff_legal.mp h
  exact Nat.div_mul_cancel hlegal.prescDivides

end

/-- Settles O26: the conditions and the values are `pcalc`'s characterisation, the bounds those of the quotient. -/
theorem pcalcAcceptsExactlyLegal : Obligations.PcalcAcceptsExactlyLegal := by
  unfold Obligations.PcalcAcceptsExactlyLegal
  refine fun ref fs p => ⟨exists_pcalc_eq_valid_iff_legal, fun raw q period ps h => ?_⟩
  obtain ⟨-, hps, hraw, -, -⟩ := pcalc_eq_valid_iff_legal.mp h
  obtain ⟨hpos, hmax, rfl⟩ := pcalc_quotient h
  have hperiod : (neg8 q).toNat = 256 - q := toNat_neg8 hpos (by omega)
  exact ⟨hraw, hpos, hmax, pcalc_quotient_mul h, hperiod, by omega, (log2_eq_of_prescCode hps).symm⟩

/-! ### The closed form (R118) -/

section

variable {ref fs p raw q : Nat} {b : Byte} {k : BitVec 3}

/-- Undoing the divisions one by one: each is exact, so multiplying back loses nothing. -/
theorem Legal.rawOf_mul (h : Legal ref fs p) : rawOf ref fs * fs = 512 * ref := by
  obtain ⟨href, hfour⟩ : 1000000 ∣ ref ∧ 4 ∣ ref / 1000000 := ⟨h.refRange.2, h.refByFour⟩
  have hfs : fs = 1000 * (fs / 1000) := (Nat.mul_div_cancel' h.fsRange.1).symm
  calc rawOf ref fs * fs
      = rawOf ref fs * (fs / 1000) * 1000 := by rw [Nat.mul_assoc, Nat.mul_comm (fs / 1000), ← hfs]
    _ = ref / 4000000 * 2048000 * 1000 := by rw [rawOf, Nat.div_mul_cancel h.rawExact]
    _ = 512 * ref := by omega

/-- R118: the closed form of `raw`. -/
theorem pcalc_raw_mul (h : pcalc ref fs p = .valid raw q b k) : raw * fs = 512 * ref := by
  obtain ⟨hlegal, -, rfl, -⟩ := pcalc_eq_valid_iff_legal.mp h
  exact hlegal.rawOf_mul

/-- R118: the closed form of `q`. -/
theorem pcalc_quotient_closed (h : pcalc ref fs p = .valid raw q b k) : q * (fs * p) = 512 * ref := by
  rw [← pcalc_raw_mul h, ← pcalc_quotient_mul h, Nat.mul_right_comm, Nat.mul_assoc]

theorem pcalc_fs_pos (h : pcalc ref fs p = .valid raw q b k) : 0 < fs := by
  obtain ⟨hlegal, -⟩ := pcalc_eq_valid_iff_legal.mp h
  exact Nat.lt_of_lt_of_le (by decide) hlegal.fsRange.2

theorem pcalc_divisor_pos (h : pcalc ref fs p = .valid raw q b k) : 0 < fs * p := by
  obtain ⟨-, hk, -⟩ := pcalc_eq_valid_iff_legal.mp h
  exact Nat.mul_pos (pcalc_fs_pos h) (prescCode_pos hk)

end

/-- Settles O27: the caveat's triple is R121's first, whose `t1` is 6. -/
theorem rawHasClosedForm : Obligations.RawHasClosedForm := by
  unfold Obligations.RawHasClosedForm
  refine ⟨fun ref fs p raw q period ps h => ?closed, 6000000, 3200000, 64, by decide, by decide, _, rfl⟩
  case closed =>
    have hraw := pcalc_raw_mul h
    have hq := pcalc_quotient_closed h
    exact ⟨hraw, Nat.eq_div_of_mul_eq_left (pcalc_fs_pos h).ne' hraw, hq,
      Nat.eq_div_of_mul_eq_left (pcalc_divisor_pos h).ne' hq⟩

/-! ### The two other readings (R121) -/

section

variable {ref fs p raw q : Nat} {b : Byte} {k : BitVec 3}

theorem quotientRational_of_valid (h : pcalc ref fs p = .valid raw q b k) : quotientRational ref fs p = some q := by
  obtain ⟨-, hk, -⟩ := pcalc_eq_valid_iff_legal.mp h
  obtain ⟨hpos, hmax, -⟩ := pcalc_quotient h
  have hfs : fs ≠ 0 := (pcalc_fs_pos h).ne'
  simp [quotientRational, hk, hfs, ← pcalc_quotient_closed h, Nat.mul_div_cancel q (pcalc_divisor_pos h), hpos, hmax]

theorem quotientTruncating_of_valid (h : pcalc ref fs p = .valid raw q b k) :
    quotientTruncating ref fs p = some q := by
  obtain ⟨hlegal, hk, rfl, rfl, -⟩ := pcalc_eq_valid_iff_legal.mp h
  obtain ⟨-, -, ⟨-, hfs⟩, -, -, hdiv, hmax⟩ := legal_iff.mp hlegal
  obtain ⟨hpos, -⟩ := pcalc_quotient h
  simp [quotientTruncating, ← rawOf_eq, hk, hfs, hdiv, hpos, hmax]

end

/-- Settles O30: exact divisions drop nothing, so all readings agree on what `pcalc` accepts. -/
theorem readingsAgreeWhereAccepted : Obligations.ReadingsAgreeWhereAccepted := by
  unfold Obligations.ReadingsAgreeWhereAccepted
  refine ⟨fun ref fs p raw q period ps h => ?agree, by decide, by decide, by decide⟩
  case agree =>
    exact ⟨quotientRational_of_valid h, quotientTruncating_of_valid h, by rw [disputed, h]⟩

/-! ### The calculator on 32-bit words (R114) -/

/-- `t3` of R113 fits a 32-bit word. -/
theorem t3_le {ref : Nat} (h : ref < 2 ^ 32) : ref / 1000000 / 4 * 2048000 ≤ 2197504000 := by
  omega

/-- The one product of the calculator does not wrap around. -/
theorem toNat_t3 (ref : Word32) :
    (ref / 1000000 / 4 * 2048000).toNat = ref.toNat / 1000000 / 4 * 2048000 := by
  have hle := t3_le ref.isLt
  rw [BitVec.toNat_mul]
  simp only [BitVec.toNat_udiv, BitVec.reduceToNat]
  exact Nat.mod_eq_of_lt (by omega)

/-- The lines of `pcalc32` from `t3` on, as `pcalcRaw` has those of `pcalc`. -/
def pcalcRaw32 (t3 fs p : Word32) : PcalcResult :=
  if fs % 1000 ≠ 0 then .invalid .rawNonintegral
  else if fs / 1000 = 0 then .invalid .rawNonintegral
  else if t3 % (fs / 1000) ≠ 0 then .invalid .rawNonintegral
  else
    match prescCode p.toNat with
    | none => .invalid .prescUnsupported
    | some ps =>
      if t3 / (fs / 1000) % p ≠ 0 then .invalid .notDivisible
      else if t3 / (fs / 1000) / p > 25 then .invalid .quotientRange
      else .valid (t3 / (fs / 1000)).toNat (t3 / (fs / 1000) / p).toNat (neg8 (t3 / (fs / 1000) / p).toNat) ps

theorem pcalc32_eq (ref fs p : Word32) : pcalc32 ref fs p =
    if ref < 4000000 then .invalid .refIllegal
    else if ref % 1000000 ≠ 0 then .invalid .refIllegal
    else if ref / 1000000 % 4 ≠ 0 then .invalid .rawNonintegral
    else pcalcRaw32 (ref / 1000000 / 4 * 2048000) fs p := rfl

/-- Past the product every line only divides and compares, which words do as numbers do. -/
theorem pcalcRaw32_eq (t3 fs p : Word32) : pcalcRaw32 t3 fs p = pcalcRaw t3.toNat fs.toNat p.toNat := by
  cases hcode : prescCode p.toNat <;>
    simp only [pcalcRaw32, pcalcRaw, pcalcQuotient, hcode, Config.qMax, gt_iff_lt, ne_eq, BitVec.lt_def,
      ← BitVec.toNat_inj, BitVec.toNat_umod, BitVec.toNat_udiv, BitVec.reduceToNat]

theorem pcalc32_eq_pcalc (ref fs p : Word32) : pcalc32 ref fs p = pcalc ref.toNat fs.toNat p.toNat := by
  rw [pcalc32_eq, pcalc, pcalcRaw32_eq, toNat_t3]
  simp only [ne_eq, BitVec.lt_def, ← BitVec.toNat_inj, BitVec.toNat_umod, BitVec.toNat_udiv, BitVec.reduceToNat]

/-- Settles O28: the bounds are those of `ref`, and a quotient is at most what it divides. -/
theorem thirtyTwoBitCalculatorAgrees : Obligations.ThirtyTwoBitCalculatorAgrees := by
  unfold Obligations.ThirtyTwoBitCalculatorAgrees
  refine ⟨fun ref hlt hle => ⟨by omega, by omega, by omega, t3_le hlt⟩, by decide,
    fun ref fs p raw q period ps h => ?_, pcalc32_eq_pcalc⟩
  obtain ⟨-, -, rfl, rfl, -⟩ := pcalc_eq_valid_iff_legal.mp h
  rw [rawOf_eq]
  exact ⟨Nat.div_le_self _ _, Nat.div_le_self _ _⟩

/-! ### `INIT` (R111, R112, R116) -/

/-- In `BOOT` the operation `INIT` completes with its writes. -/
theorem exec_init_of_boot {s : State} (hboot : s.mode = .boot) : exec .init s = .next (initialise s) :=
  exec_of_enabled (enabled_init_iff.mpr hboot)

/-- Settles O13: the writes are those of `startRunning`. -/
theorem initLegalWritesSix : Obligations.InitLegalWritesSix := by
  unfold Obligations.InitLegalWritesSix
  refine ⟨rfl, fun s raw q period ps hboot hcalc => ?_⟩
  rw [exec_init_of_boot hboot, initialise_of_valid hcalc, startRunning]

/-- Settles O14: the writes are those of taking the configuration fault. -/
theorem initFaultHalts : Obligations.InitFaultHalts := by
  unfold Obligations.InitFaultHalts
  intro s c hboot hcalc
  rw [exec_init_of_boot hboot, initialise_of_invalid hcalc, raiseConfigFault]

/-! ### Legal and illegal launches after `INIT` (R119) -/

section

variable {l : Launch} {i : Instr} {s t u : State} {es : List Instr}

theorem legalLaunch_iff : LegalLaunch l ↔ ∃ raw q b k, pcalcLaunch l = .valid raw q b k :=
  exists_pcalc_eq_valid_iff_legal.symm

theorem not_legalLaunch_iff : ¬LegalLaunch l ↔ ∃ c, pcalcLaunch l = .invalid c := by
  rw [legalLaunch_iff]
  cases pcalcLaunch l <;> simp

/-- R119: the base byte's ticks times the prescaler are `raw`. -/
theorem ticks_mul_of_valid {ref fs p raw q : Nat} {b : Byte} {k : BitVec 3}
    (h : pcalc ref fs p = .valid raw q b k) : ticks b * p = rawOf ref fs := by
  obtain ⟨-, -, hraw, -, -⟩ := pcalc_eq_valid_iff_legal.mp h
  obtain ⟨hpos, hmax, rfl⟩ := pcalc_quotient h
  rw [ticks_neg8 hpos (by omega), pcalc_quotient_mul h, hraw]

/-- In `HALT` only `TICK` is a step, until a `POR` (R199). -/
theorem eq_tick_of_halt (h : exec i s = .next t) (hhalt : s.mode = .halt) (hpor : i ≠ .por) : i = .tick := by
  obtain ⟨hen, -⟩ := exec_eq_next_iff.mp h
  cases i with
  | por => exact absurd rfl hpor
  | tick => rfl
  | init | poll b => simp [hhalt] at hen
  | _ => simp [mode_eq_run_of_enabled (.inl rfl) hen] at hhalt

/-- A halted block with the interrupt off stays so along every trace with no `POR`. -/
theorem runEvents_halt_tie (hrun : runEvents es s = .next u) (hpor : Instr.por ∉ es) (hhalt : s.mode = .halt)
    (htie : s.tie = false) : u.mode = .halt ∧ u.tie = false := by
  refine runEvents_invariant (P := fun v => v.mode = .halt ∧ v.tie = false) ?_ hrun ⟨hhalt, htie⟩
  rintro i hi v t ⟨hv, hoff⟩ hexec
  obtain rfl := eq_tick_of_halt hexec hv fun h => hpor (h ▸ hi)
  obtain ⟨-, rfl⟩ := exec_eq_next_iff.mp hexec
  exact ⟨hv, hoff⟩

end

/-- Settles O31: the calculator's answer decides, and the fault it raises is permanent. -/
theorem initSeparatesLegalFromIllegal : Obligations.InitSeparatesLegalFromIllegal := by
  unfold Obligations.InitSeparatesLegalFromIllegal
  refine fun s hboot htie => ⟨fun hlegal => ?legal, fun hillegal => ?illegal⟩
  case legal =>
    obtain ⟨raw, q, b, k, hcalc⟩ := legalLaunch_iff.mp hlegal
    refine ⟨startRunning b k s, ?_, rfl, rfl, ticks_mul_of_valid hcalc⟩
    rw [exec_init_of_boot hboot, initialise_of_valid hcalc]
  case illegal =>
    obtain ⟨c, hcalc⟩ := not_legalLaunch_iff.mp hillegal
    refine ⟨raiseConfigFault c s, ?_, rfl, htie, fun es u hpor hrun => runEvents_halt_tie hrun hpor rfl htie⟩
    rw [exec_init_of_boot hboot, initialise_of_invalid hcalc]

end Sys2Proof.Machine

/-! ## Proofs: the timer (`41_timer.md`)

A trace without `ISR.ENTER` and `POR` acts on the timer as its ticks alone do, and `TICK` against `POLL` and
`ISR.ENTER`. -/

namespace Sys2Proof.Machine

open Sys2Proof

/-! ### One count (R141) -/

/-- `TICK` is a step in every state. -/
theorem exec_tick (s : State) : exec .tick s = .next (countTimer s) := exec_of_enabled enabled_tick

/-- The flag is set on the old count `0xFF` and else stays. -/
theorem tifAfterTick_eq_ite (v : Byte) (f : Bool) : tifAfterTick v f = if v = 0xFF#8 then true else f := by
  by_cases hv : v = 0xFF#8 <;> simp [tifAfterTick, expires, hv]

/-- Adding ticks to a byte wraps modulo 256. -/
theorem toNat_add_ofNat (v : Byte) (n : Nat) : (v + BitVec.ofNat 8 n).toNat = (v.toNat + n) % 256 := by
  rw [BitVec.toNat_add, BitVec.toNat_ofNat, Nat.add_mod_mod]

/-- Settles O15: the writes are those of `countTimer`, its sum and its flag written out. -/
theorem tickCountsAndFlags : Obligations.TickCountsAndFlags := by
  unfold Obligations.TickCountsAndFlags
  refine ⟨rfl, fun s => ?_⟩
  have hcount : s.tmr + 1#8 = BitVec.ofNat 8 ((s.tmr.toNat + 1) % 256) := by
    rw [← toNat_add_ofNat, BitVec.ofNat_toNat, BitVec.setWidth_eq]
  rw [exec_tick, countTimer, tifAfterTick_eq_ite, hcount]

/-! ### Time on the timer (R142, R240) -/

/-- Two states whose timer and flag read the same. -/
structure SameTimer (s t : State) : Prop where
  tmr : s.tmr = t.tmr
  tif : s.tif = t.tif

section

variable {i : Instr} {es : List Instr} {s t u : State}

theorem SameTimer.after_tick (h : SameTimer s t) : SameTimer (countTimer s) (countTimer t) where
  tmr := by rw [countTimer_tmr, countTimer_tmr, h.tmr]
  tif := by rw [countTimer_tif, countTimer_tif, h.tmr, h.tif]

/-- R21: only `TICK`, `ISR.ENTER` and `POR` write the timer and the flag. -/
theorem sameTimer_effect (htick : i ≠ .tick) (henter : i ≠ .isrEnter) (hpor : i ≠ .por) (s : State) :
    SameTimer (effect i s) s := by
  cases i with
  | tick => exact absurd rfl htick
  | isrEnter => exact absurd rfl henter
  | por => exact absurd rfl hpor
  | init => obtain ⟨_, _, p, k, -, he⟩ | ⟨c, -, he⟩ := initialise_cases s <;> rw [effect, he] <;> exact ⟨rfl, rfl⟩
  | _ => exact ⟨rfl, rfl⟩

/-- SIMULATION: the timer cannot tell a trace without `ISR.ENTER` and `POR` from the trace of its ticks alone. -/
theorem runEvents_sameTimer (henter : Instr.isrEnter ∉ es) (hpor : Instr.por ∉ es)
    (hrun : runEvents es s = .next u) (hst : SameTimer s t) :
    ∃ v, runEvents (List.replicate (ticksIn es) .tick) t = .next v ∧ SameTimer u v := by
  induction es generalizing s t with
  | nil =>
    cases hrun
    exact ⟨t, rfl, hst⟩
  | cons i is ih =>
    obtain ⟨henterHead, henterTail⟩ := List.ne_and_not_mem_of_not_mem_cons henter
    obtain ⟨hporHead, hporTail⟩ := List.ne_and_not_mem_of_not_mem_cons hpor
    obtain ⟨s', hexec, hrest⟩ := runEvents_cons_eq_next.mp hrun
    obtain ⟨-, rfl⟩ := exec_eq_next_iff.mp hexec
    rw [ticksIn_cons]
    by_cases htick : i = .tick
    · subst htick
      rw [if_pos rfl, List.replicate_succ, runEvents_cons_of_enabled enabled_tick]
      exact ih henterTail hporTail hrest hst.after_tick
    · have hkept := sameTimer_effect htick henterHead.symm hporHead.symm s
      rw [if_neg htick]
      exact ih henterTail hporTail hrest ⟨hkept.tmr.trans hst.tmr, hkept.tif.trans hst.tif⟩

/-- The whole effect of such a trace on the timer: the count moves on by its ticks, and the flag is set once the
ticks to go have passed. -/
theorem runEvents_tmr_and_tif (henter : Instr.isrEnter ∉ es) (hpor : Instr.por ∉ es)
    (hrun : runEvents es s = .next u) :
    u.tmr = s.tmr + BitVec.ofNat 8 (ticksIn es) ∧ u.tif = (s.tif || decide (ticks s.tmr ≤ ticksIn es)) := by
  obtain ⟨v, hticks, htmr, htif⟩ := runEvents_sameTimer henter hpor hrun ⟨rfl, rfl⟩
  rw [runEvents_replicate_tick] at hticks
  cases hticks
  exact ⟨htmr, htif⟩

end

/-- The count stands at `0xFF` when one more tick completes the ticks to go, modulo 256. -/
theorem add_ofNat_eq_ff_iff (v : Byte) (n : Nat) :
    v + BitVec.ofNat 8 n = 0xFF#8 ↔ (n + 1) % 256 = ticks v % 256 := by
  have hlt : v.toNat < 256 := v.isLt
  rw [← BitVec.toNat_inj, toNat_add_ofNat, ticks]
  show (v.toNat + n) % 256 = 255 ↔ _
  omega

/-- Settles O34: the effect of the trace's ticks, the sum read as a number. -/
theorem timerAndFlagAfterTicks : Obligations.TimerAndFlagAfterTicks := by
  unfold Obligations.TimerAndFlagAfterTicks
  intro s u es henter hpor hrun
  obtain ⟨htmr, htif⟩ := runEvents_tmr_and_tif henter hpor hrun
  refine ⟨?_, by simp [htif]⟩
  rw [htmr, toNat_add_ofNat]

/-- Settles O33: the count after the trace is the old one moved on by its ticks. -/
theorem nextExpiryIsTicksAway : Obligations.NextExpiryIsTicksAway := by
  unfold Obligations.NextExpiryIsTicksAway
  refine ⟨fun s u es henter hpor hrun => ?_, fun _ => ticks_neg8, rfl⟩
  obtain ⟨htmr, -⟩ := runEvents_tmr_and_tif henter hpor hrun
  rw [htmr]
  exact add_ofNat_eq_ff_iff s.tmr (ticksIn es)

/-! ### `TICK` against `POLL` and `ISR.ENTER` (R146) -/

section

variable {b : Bool} {s : State}

/-- `TICK` and `POLL` write different registers, and neither reads what the other writes. -/
theorem effect_poll_effect_tick (b : Bool) (s : State) :
    effect (.poll b) (effect .tick s) = effect .tick (effect (.poll b) s) := rfl

/-- A `TICK` leaves an enabled `POLL` enabled unless it sets a flag that interrupts. -/
theorem enabled_poll_countTimer_iff (hen : enabled (.poll b) s = true) :
    enabled (.poll b) (countTimer s) = true ↔ s.tmr ≠ 0xFF#8 ∨ s.tie = false := by
  obtain ⟨hrun, hseq, hidle⟩ := enabled_poll_iff.mp hen
  rw [enabled_poll_iff, countTimer_mode, countTimer_seq, countTimer_tif, countTimer_tie, tifAfterTick_eq_ite]
  by_cases hexp : s.tmr = 0xFF#8
  · simp [hrun, hseq, hexp]
  · simp [hrun, hseq, hexp, hidle]

/-- The two orders of `TICK` and an entry always differ: a `TICK` after the entry counts on the reloaded timer, one
before it is lost to the reload. -/
theorem takeInterrupt_countTimer_ne (s : State) : takeInterrupt (countTimer s) ≠ countTimer (takeInterrupt s) := by
  intro h
  have hcell : s.activePeriod = s.activePeriod + 1#8 := congrArg State.tmr h
  bv_omega

/-- A `TICK` leaves a pending interrupt pending. -/
theorem enabled_isrEnter_countTimer (hen : enabled .isrEnter s = true) :
    enabled .isrEnter (countTimer s) = true := by
  obtain ⟨hrun, hseq, htif, htie⟩ := enabled_isrEnter_iff.mp hen
  exact enabled_isrEnter_iff.mpr ⟨hrun, hseq, by simp [tifAfterTick, htif], htie⟩

end

/-- A running block in its main loop with the interrupt pending. -/
def interrupted : State := { State.reset with mode := .run, tie := true, tif := true }

theorem enabled_isrEnter_interrupted : enabled .isrEnter interrupted = true :=
  enabled_isrEnter_iff.mpr ⟨rfl, rfl, rfl, rfl⟩

/-- Settles O35: the writes of `TICK` and `POLL` commute, so the enabling of the later `POLL` decides; against
an entry the two orders differ in the count. -/
theorem tickCommutesWithPoll : Obligations.TickCommutesWithPoll := by
  unfold Obligations.TickCommutesWithPoll
  refine ⟨fun s a c b htick hpoll => ?poll, ?enter⟩
  case poll =>
    obtain ⟨-, rfl⟩ := exec_eq_next_iff.mp htick
    obtain ⟨hen, rfl⟩ := exec_eq_next_iff.mp hpoll
    have hlater := enabled_poll_countTimer_iff hen
    refine ⟨fun hquiet => ⟨effect .tick (effect (.poll b) s), ?_, exec_of_enabled enabled_tick⟩, fun hexp htie => ?_⟩
    · rw [← effect_poll_effect_tick]
      exact exec_of_enabled (hlater.mpr hquiet)
    · have hdisabled : ¬enabled (.poll b) (countTimer s) = true := by simp [hlater, hexp, htie]
      exact exec_eq_notEnabled_iff.mpr (Bool.eq_false_iff.mpr hdisabled)
  case enter =>
    have hen := enabled_isrEnter_interrupted
    exact ⟨interrupted, _, _, _, _, exec_tick _, exec_of_enabled (enabled_isrEnter_countTimer hen),
      exec_of_enabled hen, exec_tick _, takeInterrupt_countTimer_ne interrupted⟩

end Sys2Proof.Machine

/-! ## Proofs: the gate and reset driver (`42_gate_reset_driver.md`)

The six operations, who writes each register, and a handler activation told by the steps it has left. -/

namespace Sys2Proof.Machine

open Sys2Proof

/-! ### The six operations (R156 to R163) -/

/-- An operation is refused where its row of R95's table does not hold. -/
theorem exec_eq_notEnabled_of_not {i : Instr} {s : State} {p : Prop} (hen : enabled i s = true ↔ p) (hp : ¬p) :
    exec i s = .refused (.notEnabled i) :=
  exec_eq_notEnabled_iff.mpr (Bool.eq_false_iff.mpr fun h => hp (hen.mp h))

/-- Settles O17: the writes are those of taking the interrupt. -/
theorem isrEnterReloadsTimer : Obligations.IsrEnterReloadsTimer := by
  unfold Obligations.IsrEnterReloadsTimer
  exact ⟨rfl, fun s hrun hseq htif htie => exec_of_enabled (enabled_isrEnter_iff.mpr ⟨hrun, hseq, htif, htie⟩),
    fun s => exec_eq_notEnabled_of_not enabled_isrEnter_iff⟩

/-- Settles O19: the writes are those of `raiseReset`. -/
theorem isrRsthiRaisesReset : Obligations.IsrRsthiRaisesReset := by
  unfold Obligations.IsrRsthiRaisesReset
  exact ⟨rfl, fun s hrun hseq => exec_of_enabled (enabled_isrRsthi_iff.mpr ⟨hrun, hseq⟩),
    fun s => exec_eq_notEnabled_of_not enabled_isrRsthi_iff⟩

/-- Settles O20: the write is that of `delayNop`. -/
theorem isrNopCountsDown : Obligations.IsrNopCountsDown := by
  unfold Obligations.IsrNopCountsDown
  exact ⟨rfl, fun s hrun hseq hnop => exec_of_enabled (enabled_isrNop_iff.mpr ⟨hrun, hseq, hnop⟩),
    fun s => exec_eq_notEnabled_of_not enabled_isrNop_iff⟩

/-- Settles O21: the writes are those of `lowerReset`. -/
theorem isrRstloLowersReset : Obligations.IsrRstloLowersReset := by
  unfold Obligations.IsrRstloLowersReset
  exact ⟨rfl, fun s hrun hseq hnop => exec_of_enabled (enabled_isrRstlo_iff.mpr ⟨hrun, hseq, hnop⟩),
    fun s => exec_eq_notEnabled_of_not enabled_isrRstlo_iff⟩

/-- Settles O22: the return leaves `TIF` and `TIE` alone, so a pending expiry enables the entry in the main loop. -/
theorem isrRetReturnsToMain : Obligations.IsrRetReturnsToMain := by
  unfold Obligations.IsrRetReturnsToMain
  have hreturn : ∀ s : State, s.mode = .run → s.seq = .sRet → exec .isrRet s = .next (returnFromInterrupt s) :=
    fun s hrun hseq => exec_of_enabled (enabled_isrRet_iff.mpr ⟨hrun, hseq⟩)
  refine ⟨rfl, hreturn, fun s => exec_eq_notEnabled_of_not enabled_isrRet_iff, fun s hrun hseq htif htie => ?_⟩
  have henter : enabled .isrEnter (returnFromInterrupt s) = true :=
    enabled_isrEnter_iff.mpr ⟨hrun, rfl, htif, htie⟩
  exact ⟨_, _, hreturn s hrun hseq, htif, exec_of_enabled henter⟩

/-! ### Who writes each register (R21, R168) -/

/-- R21's column "written by", `POR` left out. -/
def IsWriter (i : Instr) : Reg → Prop
  | .gate => i = .isrToggle
  | .rstOut => i = .isrRsthi ∨ i = .isrRstlo
  | .tmr | .tif => i = .tick ∨ i = .isrEnter
  | .activePeriod => i = .init ∨ ∃ b, i = .poll b
  | .ind => ∃ b, i = .poll b
  | .seq => isHandlerStep i = true ∧ i ≠ .isrNop
  | .nopCnt => i = .isrRsthi ∨ i = .isrNop
  | .mode | .tie | .basePeriod | .psSel | .cfgCause => i = .init

section

variable {i : Instr} {r : Reg} {s t : State}

/-- The two tables of R21 agree: the registers an operation writes are those it is named a writer of. -/
theorem isWriter_of_mem_writtenRegs (hmem : r ∈ writtenRegs i) (hpor : i ≠ .por) : IsWriter i r := by
  cases i with
  | por => exact absurd rfl hpor
  | _ => cases r <;> simp_all [writtenRegs, IsWriter, isHandlerStep]

/-- An operation that changes a register is a writer of it: the frame, read the other way round. -/
theorem isWriter_of_exec (h : exec i s = .next t) (hpor : i ≠ .por) (hne : readReg r t ≠ readReg r s) :
    IsWriter i r :=
  isWriter_of_mem_writtenRegs (by_contra fun hr => hne (readReg_exec h hr)) hpor

theorem boolToNat_injective : Function.Injective Bool.toNat := by decide

theorem modeCode_injective : Function.Injective modeCode := by
  intro a b h
  cases a <;> cases b <;> simp_all [modeCode]

theorem seqCode_injective : Function.Injective seqCode := by
  intro a b h
  cases a <;> cases b <;> simp_all [seqCode]

/-- R158: nothing but `ISR.TOGGLE` and `POR` writes the gate pin. -/
theorem exec_gate (h : exec i s = .next t) (htoggle : i ≠ .isrToggle) (hpor : i ≠ .por) : t.gate = s.gate :=
  by_contra fun hne => htoggle (isWriter_of_exec (r := .gate) h hpor fun he => hne (boolToNat_injective he))

/-- `TIF` falls by `ISR.ENTER` only: a `TICK` never clears it (R141, R168). -/
theorem eq_isrEnter_of_tif_falls (h : exec i s = .next t) (hpor : i ≠ .por) (hs : s.tif = true)
    (ht : t.tif = false) : i = .isrEnter := by
  obtain rfl | henter := isWriter_of_exec (r := .tif) h hpor (by simp [readReg, hs, ht])
  · obtain ⟨-, rfl⟩ := exec_eq_next_iff.mp h
    simp [effect, tifAfterTick, hs] at ht
  · exact henter

/-- `TIF` rises by `TICK` only: the other writer of the flag clears it (R156). -/
theorem eq_tick_of_tif_rises (h : exec i s = .next t) (hpor : i ≠ .por) (hs : s.tif = false)
    (ht : t.tif = true) : i = .tick := by
  obtain htick | rfl := isWriter_of_exec (r := .tif) h hpor (by simp [readReg, hs, ht])
  · exact htick
  · obtain ⟨-, rfl⟩ := exec_eq_next_iff.mp h
    simp [effect] at ht

end

/-- Settles O18: the two gates are the two branches of `toggleGate`; the last clause is R21's frame of the pin. -/
theorem isrToggleFlipsGate : Obligations.IsrToggleFlipsGate := by
  unfold Obligations.IsrToggleFlipsGate
  refine ⟨rfl, fun s hrun hseq => ?_, fun s => exec_eq_notEnabled_of_not enabled_isrToggle_iff,
    fun i s t h => exec_gate h⟩
  rw [exec_of_enabled (enabled_isrToggle_iff.mpr ⟨hrun, hseq⟩), effect, toggleGate]
  exact ⟨fun hgate => by simp [hgate], fun hgate => by simp [hgate]⟩

/-- Settles O24: the registers read off the table of writers, and the two edges of `TIF`. -/
theorem eachRegisterHasItsWriters : Obligations.EachRegisterHasItsWriters := by
  unfold Obligations.EachRegisterHasItsWriters
  intro i s t h hpor
  have hwriter : ∀ r, readReg r t ≠ readReg r s → IsWriter i r := fun r => isWriter_of_exec h hpor
  refine ⟨fun hne => hwriter .gate (boolToNat_injective.ne hne),
    fun hne => hwriter .rstOut (boolToNat_injective.ne hne),
    fun hne => hwriter .tmr (mt BitVec.toNat_inj.mp hne), eq_isrEnter_of_tif_falls h hpor,
    eq_tick_of_tif_rises h hpor, fun hne => hwriter .activePeriod (mt BitVec.toNat_inj.mp hne),
    fun hne => hwriter .ind (boolToNat_injective.ne hne),
    fun hne => hwriter .seq fun he => hne (seqCode_injective (BitVec.toNat_inj.mp he)),
    hwriter .nopCnt, ?_⟩
  rintro (hmode | htie | hbase | hps | hcause)
  · exact hwriter .mode fun he => hmode (modeCode_injective (BitVec.toNat_inj.mp he))
  · exact hwriter .tie (boolToNat_injective.ne htie)
  · exact hwriter .basePeriod (mt BitVec.toNat_inj.mp hbase)
  · exact hwriter .psSel (mt BitVec.toNat_inj.mp hps)
  · exact hwriter .cfgCause (mt BitVec.toNat_inj.mp hcause)

/-! ### The steps an activation has left (R155) -/

/-- Inside a handler activation: the block runs and the sequencer is not in the main loop. -/
structure InHandler (s : State) : Prop where
  running : s.mode = .run
  active : s.seq ≠ .main

/-- The steps of a reset pulse (R160 to R162). -/
def pulseSteps (nops : Nat) : List Instr := .isrRsthi :: (List.replicate nops .isrNop ++ [.isrRstlo])

/-- The steps of R155's table that stand between a state and the `ISR.RET` of its activation. -/
def stepsLeft (s : State) : List Instr :=
  match s.seq with
  | .main | .sRet => []
  | .sToggle => .isrToggle :: if s.gate then [] else pulseSteps s.launch.rstPulseNops
  | .sRsthi => pulseSteps s.launch.rstPulseNops
  | .sDelay => List.replicate s.nopCnt .isrNop ++ [.isrRstlo]

/-- The state the rest of the activation leads to, timer and flag left as they are (R164). -/
def afterHandler (s : State) : State :=
  match s.seq with
  | .main | .sRet => { s with seq := .main }
  | .sToggle => { s with
      gate := !s.gate
      rstOut := if s.gate then s.rstOut else false
      nopCnt := if s.gate then s.nopCnt else 0
      seq := .main }
  | .sRsthi | .sDelay => { s with rstOut := false, nopCnt := 0, seq := .main }

section

variable {i : Instr} {es : List Instr} {s t u a b c : State}

theorem stepsLeft_of_sRet (h : s.seq = .sRet) : stepsLeft s = [] := by rw [stepsLeft, h]

theorem afterHandler_of_sRet (h : s.seq = .sRet) : afterHandler s = { s with seq := .main } := by
  rw [afterHandler, h]

theorem afterHandler_withTimer (s : State) :
    { afterHandler s with tmr := s.tmr, tif := s.tif } = afterHandler s := by
  cases hseq : s.seq <;> simp only [afterHandler, hseq]

theorem isrEnter_notMem_stepsLeft (s : State) : Instr.isrEnter ∉ stepsLeft s := by
  cases hseq : s.seq <;> simp [stepsLeft, hseq, pulseSteps, List.mem_replicate]

/-- What one event of an activation does: it is a `TICK` or the first of the steps left, the activation goes on, and
it still leads to the same state, timer and flag apart. -/
structure HandlerProgress (i : Instr) (s t : State) : Prop where
  inside : InHandler t
  steps : [i].filter (fun i => i ≠ .tick) ++ stepsLeft t = stepsLeft s
  goal : afterHandler t = { afterHandler s with tmr := t.tmr, tif := t.tif }

theorem handlerProgress_tick (hs : InHandler s) : HandlerProgress .tick s (countTimer s) where
  inside := ⟨hs.running, hs.active⟩
  steps := rfl
  goal := by cases hseq : s.seq <;> simp only [afterHandler, countTimer_seq, hseq] <;> rfl

/-- The gate decides between the pulse and the return. -/
theorem handlerProgress_isrToggle (hs : InHandler s) (hseq : s.seq = .sToggle) :
    HandlerProgress .isrToggle s (toggleGate s) where
  inside := ⟨hs.running, by cases hgate : s.gate <;> simp [hgate]⟩
  steps := by cases hgate : s.gate <;> simp [stepsLeft, hseq, hgate]
  goal := by cases hgate : s.gate <;> simp [afterHandler, toggleGate, hseq, hgate]

theorem handlerProgress_isrRsthi (hs : InHandler s) (hseq : s.seq = .sRsthi) :
    HandlerProgress .isrRsthi s (raiseReset s) where
  inside := ⟨hs.running, by simp⟩
  steps := by simp [stepsLeft, hseq, pulseSteps]
  goal := by simp [afterHandler, raiseReset, hseq]

/-- A no-op takes one off the count, and so off the no-ops left. -/
theorem handlerProgress_isrNop (hs : InHandler s) (hseq : s.seq = .sDelay) (hnop : 0 < s.nopCnt) :
    HandlerProgress .isrNop s (delayNop s) where
  inside := ⟨hs.running, hs.active⟩
  steps := by
    obtain ⟨n, hn⟩ := Nat.exists_eq_succ_of_ne_zero hnop.ne'
    simp [stepsLeft, hseq, hn, List.replicate_succ]
  goal := by simp [afterHandler, delayNop, hseq]

theorem handlerProgress_isrRstlo (hs : InHandler s) (hseq : s.seq = .sDelay) (hnop : s.nopCnt = 0) :
    HandlerProgress .isrRstlo s (lowerReset s) where
  inside := ⟨hs.running, by simp⟩
  steps := by simp [stepsLeft, hseq, hnop]
  goal := by simp [afterHandler, lowerReset, hseq, hnop]

/-- Inside an activation no main-loop operation is a step, so every event but `POR` and the return is progress. -/
theorem InHandler.progress (hs : InHandler s) (h : exec i s = .next t) (hpor : i ≠ .por) (hret : i ≠ .isrRet) :
    HandlerProgress i s t := by
  obtain ⟨hen, rfl⟩ := exec_eq_next_iff.mp h
  cases i with
  | por => exact absurd rfl hpor
  | isrRet => exact absurd rfl hret
  | init => simp [hs.running] at hen
  | poll b | isrEnter => simp [hs.active] at hen
  | tick => exact handlerProgress_tick hs
  | isrToggle => exact handlerProgress_isrToggle hs (enabled_isrToggle_iff.mp hen).2
  | isrRsthi => exact handlerProgress_isrRsthi hs (enabled_isrRsthi_iff.mp hen).2
  | isrNop =>
    obtain ⟨-, hseq, hnop⟩ := enabled_isrNop_iff.mp hen
    exact handlerProgress_isrNop hs hseq hnop
  | isrRstlo =>
    obtain ⟨-, hseq, hnop⟩ := enabled_isrRstlo_iff.mp hen
    exact handlerProgress_isrRstlo hs hseq hnop

/-- The same along a trace: its events but the ticks are the first of the steps left. -/
theorem InHandler.runEvents_progress (hs : InHandler s) (hrun : runEvents es s = .next u) (hpor : Instr.por ∉ es)
    (hret : Instr.isrRet ∉ es) :
    es.filter (fun i => i ≠ .tick) ++ stepsLeft u = stepsLeft s ∧
      afterHandler u = { afterHandler s with tmr := u.tmr, tif := u.tif } := by
  induction es generalizing s with
  | nil =>
    cases hrun
    exact ⟨rfl, (afterHandler_withTimer u).symm⟩
  | cons i is ih =>
    obtain ⟨hporHead, hporTail⟩ := List.ne_and_not_mem_of_not_mem_cons hpor
    obtain ⟨hretHead, hretTail⟩ := List.ne_and_not_mem_of_not_mem_cons hret
    obtain ⟨t, hexec, hrest⟩ := runEvents_cons_eq_next.mp hrun
    have hstep := hs.progress hexec hporHead.symm hretHead.symm
    obtain ⟨hsteps, hgoal⟩ := ih hstep.inside hrest hporTail hretTail
    refine ⟨?_, by rw [hgoal, hstep.goal]⟩
    rw [← hstep.steps, ← hsteps, ← List.append_assoc, ← List.filter_append, List.singleton_append]

/-- AN ACTIVATION UP TO ITS RETURN: its events but the ticks are the steps that were left, and it leads where they
lead, to a state whose timer and flag the return does not touch. -/
theorem InHandler.runEvents_then_isrRet (ha : InHandler a) (hrun : runEvents es a = .next b)
    (hexec : exec .isrRet b = .next c) (hpor : Instr.por ∉ es) (hret : Instr.isrRet ∉ es) :
    es.filter (fun i => i ≠ .tick) = stepsLeft a ∧ c = { afterHandler a with tmr := b.tmr, tif := b.tif } := by
  obtain ⟨hen, rfl⟩ := exec_eq_next_iff.mp hexec
  obtain ⟨-, hseq⟩ := enabled_isrRet_iff.mp hen
  obtain ⟨hsteps, hgoal⟩ := ha.runEvents_progress hrun hpor hret
  rw [stepsLeft_of_sRet hseq, List.append_nil] at hsteps
  rw [afterHandler_of_sRet hseq] at hgoal
  exact ⟨hsteps, hgoal⟩

/-- An entry puts the block inside an activation, at its toggle. -/
theorem inHandler_of_isrEnter (h : exec .isrEnter s = .next a) : InHandler a ∧ a = takeInterrupt s := by
  obtain ⟨hen, rfl⟩ := exec_eq_next_iff.mp h
  obtain ⟨hrun, -⟩ := enabled_isrEnter_iff.mp hen
  exact ⟨⟨hrun, by simp [effect]⟩, rfl⟩

/-- A toggle leaves it inside the activation, at the pulse or at the return. -/
theorem inHandler_of_isrToggle (h : exec .isrToggle s = .next a) : InHandler a ∧ a = toggleGate s := by
  obtain ⟨hen, rfl⟩ := exec_eq_next_iff.mp h
  obtain ⟨hrun, hseq⟩ := enabled_isrToggle_iff.mp hen
  exact ⟨(handlerProgress_isrToggle ⟨hrun, by simp [hseq]⟩ hseq).inside, rfl⟩

end

/-- Settles O39: the steps left after an entry are R155's table. -/
theorem activationHasItsSteps : Obligations.ActivationHasItsSteps := by
  unfold Obligations.ActivationHasItsSteps
  intro s a b c es henter hrun hret hpor hnoRet
  obtain ⟨ha, rfl⟩ := inHandler_of_isrEnter henter
  obtain ⟨hsteps, -⟩ := ha.runEvents_then_isrRet hrun hret hpor hnoRet
  rw [hsteps]
  cases hgate : s.gate <;> simp [stepsLeft, pulseSteps, hgate]

/-- Settles O40: the registers go where the steps lead; the timer and the flag see the ticks alone, because no second
entry is among the steps. -/
theorem activationNetEffect : Obligations.ActivationNetEffect := by
  unfold Obligations.ActivationNetEffect
  intro s a b c es henter hrun hret hpor hnoRet
  obtain ⟨ha, rfl⟩ := inHandler_of_isrEnter henter
  obtain ⟨hsteps, rfl⟩ := ha.runEvents_then_isrRet hrun hret hpor hnoRet
  have hnoEnter : Instr.isrEnter ∉ es := fun hmem =>
    isrEnter_notMem_stepsLeft _ (hsteps ▸ List.mem_filter.mpr ⟨hmem, by simp⟩)
  obtain ⟨htmr, htif⟩ := runEvents_tmr_and_tif hnoEnter hpor hrun
  rw [htmr, htif, takeInterrupt_tif, Bool.false_or]
  rfl

/-- Settles O41: the whole handler is R97's; the pulse's states are those after its no-ops so far. -/
theorem handlerRunsToCompletion : Obligations.HandlerRunsToCompletion := by
  unfold Obligations.HandlerRunsToCompletion
  intro s hrun hseq htif htie hrst hnop
  refine ⟨runEvents_handlerEvents hrun hseq htif htie hrst hnop, fun hgate k hk => ?_⟩
  have hrsthi : enabled .isrRsthi (toggleGate (takeInterrupt s)) = true :=
    enabled_isrRsthi_iff.mpr ⟨hrun, by simp [hgate]⟩
  calc
    runEvents (.isrEnter :: .isrToggle :: .isrRsthi :: List.replicate k .isrNop) s
      = runEvents (List.replicate k .isrNop) (raiseReset (toggleGate (takeInterrupt s))) := by
        rw [runEvents_isrEnter_isrToggle _ hrun hseq htif htie, runEvents_cons_of_enabled hrsthi, effect]
    _ = .next { raiseReset (toggleGate (takeInterrupt s)) with nopCnt := s.launch.rstPulseNops - k } :=
        runEvents_replicate_isrNop hrun rfl hk
    _ = _ := by simp [raiseReset, toggleGate, takeInterrupt, hgate]

/-! ### One toggle between two entries (R159) -/

/-- The toggles that are due: one between an entry and its `ISR.TOGGLE`. -/
def togglesDue (s : State) : Nat := if s.seq = .sToggle then 1 else 0

/-- The gate once the toggle that is due has been performed. -/
def gateDue (s : State) : Bool := if s.seq = .sToggle then !s.gate else s.gate

section

variable {i : Instr} {es : List Instr} {s t u : State}

/-- Only `ISR.ENTER` writes `S_TOGGLE` into the sequencer, and only `ISR.TOGGLE` and `POR` leave it. -/
theorem exec_seq_eq_sToggle_iff (h : exec i s = .next t) (henter : i ≠ .isrEnter) (hpor : i ≠ .por)
    (htoggle : i ≠ .isrToggle) : t.seq = .sToggle ↔ s.seq = .sToggle := by
  obtain ⟨hen, rfl⟩ := exec_eq_next_iff.mp h
  cases i with
  | por => exact absurd rfl hpor
  | isrEnter => exact absurd rfl henter
  | isrToggle => exact absurd rfl htoggle
  | init | tick | poll b => rw [effect_seq s rfl hpor]
  | isrRsthi => simp [effect, (enabled_isrRsthi_iff.mp hen).2]
  | isrNop => rfl
  | isrRstlo =>
    obtain ⟨-, hseq, -⟩ := enabled_isrRstlo_iff.mp hen
    simp [effect, hseq]
  | isrRet => simp [effect, (enabled_isrRet_iff.mp hen).2]

theorem toggleGate_seq_ne_sToggle (s : State) : (toggleGate s).seq ≠ .sToggle := by
  cases hgate : s.gate <;> simp [hgate]

/-- Away from entries and resets, a toggle performed is no longer due, and the gate ends where it was due to. -/
theorem exec_togglesDue_and_gateDue (h : exec i s = .next t) (henter : i ≠ .isrEnter) (hpor : i ≠ .por) :
    [i].count .isrToggle + togglesDue t = togglesDue s ∧ gateDue t = gateDue s := by
  by_cases htoggle : i = .isrToggle
  · subst htoggle
    obtain ⟨hen, rfl⟩ := exec_eq_next_iff.mp h
    obtain ⟨-, hseq⟩ := enabled_isrToggle_iff.mp hen
    have hleft := toggleGate_seq_ne_sToggle s
    rw [togglesDue, togglesDue, gateDue, gateDue, effect, if_neg hleft, if_pos hseq, if_neg hleft, if_pos hseq]
    exact ⟨rfl, rfl⟩
  · have hseq := exec_seq_eq_sToggle_iff h henter hpor htoggle
    have hgate := exec_gate h htoggle hpor
    simp [togglesDue, gateDue, hseq, hgate, htoggle]

theorem runEvents_togglesDue_and_gateDue (hrun : runEvents es s = .next u) (henter : Instr.isrEnter ∉ es)
    (hpor : Instr.por ∉ es) : es.count .isrToggle + togglesDue u = togglesDue s ∧ gateDue u = gateDue s := by
  induction es generalizing s with
  | nil =>
    cases hrun
    simp
  | cons i is ih =>
    obtain ⟨henterHead, henterTail⟩ := List.ne_and_not_mem_of_not_mem_cons henter
    obtain ⟨hporHead, hporTail⟩ := List.ne_and_not_mem_of_not_mem_cons hpor
    obtain ⟨t, hexec, hrest⟩ := runEvents_cons_eq_next.mp hrun
    obtain ⟨hcountHead, hgateHead⟩ := exec_togglesDue_and_gateDue hexec henterHead.symm hporHead.symm
    obtain ⟨hcountTail, hgateTail⟩ := ih hrest henterTail hporTail
    refine ⟨?_, hgateTail.trans hgateHead⟩
    rw [← List.singleton_append, List.count_append]
    omega

end

/-- Settles O42: one toggle is due after the first entry, none at the second. -/
theorem gateTogglesOncePerActivation : Obligations.GateTogglesOncePerActivation := by
  unfold Obligations.GateTogglesOncePerActivation
  intro s a b c es hfirst hrun hsecond henter hpor
  obtain ⟨-, rfl⟩ := inHandler_of_isrEnter hfirst
  obtain ⟨hen, -⟩ := exec_eq_next_iff.mp hsecond
  obtain ⟨-, hmain, -⟩ := enabled_isrEnter_iff.mp hen
  have hdue := runEvents_togglesDue_and_gateDue hrun henter hpor
  simpa [togglesDue, gateDue, hmain] using hdue

/-! ### The reset pulse follows an opening (R166) -/

section

variable {i : Instr} {es : List Instr} {s t u : State}

/-- `RST_OUT` rises only by `ISR.RSTHI`: its other writers lower it. -/
theorem eq_isrRsthi_of_rstOut_rises (h : exec i s = .next t) (hs : s.rstOut = false) (ht : t.rstOut = true) :
    i = .isrRsthi := by
  have hpor : i ≠ .por := by
    rintro rfl
    obtain ⟨-, rfl⟩ := exec_eq_next_iff.mp h
    simp [effect] at ht
  obtain hrsthi | rfl := isWriter_of_exec (r := .rstOut) h hpor (by simp [readReg, hs, ht])
  · exact hrsthi
  · obtain ⟨-, rfl⟩ := exec_eq_next_iff.mp h
    simp [effect] at ht

/-- An event that ends at `S_RSTHI` is the toggle that opened the gate, or a `TICK` that found the sequencer there. An
`INIT` would be a third, but it needs `BOOT`. -/
theorem exec_to_sRsthi (h : exec i s = .next t) (hmode : s.seq = .sRsthi → s.mode = .run) (hseq : t.seq = .sRsthi) :
    t.mode = .run ∧ (i = .isrToggle ∧ t.gate = true ∨ i = .tick ∧ s.seq = .sRsthi) := by
  obtain ⟨hen, rfl⟩ := exec_eq_next_iff.mp h
  cases i with
  | tick => exact ⟨hmode hseq, .inr ⟨rfl, hseq⟩⟩
  | isrToggle =>
    obtain ⟨hrun, -⟩ := enabled_isrToggle_iff.mp hen
    refine ⟨hrun, .inl ⟨rfl, ?_⟩⟩
    cases hgate : s.gate <;> simp_all [effect]
  | init =>
    have hrun := hmode ((initialise_seq s).symm.trans hseq)
    simp [hrun] at hen
  | poll b | isrNop => simp_all [effect]
  | _ => simp [effect] at hseq

/-- A trace from outside `S_RSTHI` is at `S_RSTHI` in `RUN` only. -/
theorem runEvents_mode_of_sRsthi (hs : s.seq ≠ .sRsthi) (hrun : runEvents es s = .next u) :
    u.seq = .sRsthi → u.mode = .run :=
  runEvents_invariant (P := fun v => v.seq = .sRsthi → v.mode = .run)
    (fun _ _ _ _ hv hexec hseq => (exec_to_sRsthi hexec hv hseq).1) hrun fun hseq => absurd hseq hs

/-- Such a trace ends with an opening toggle and ticks after it. -/
theorem exists_opening_of_sRsthi (hs : s.seq ≠ .sRsthi) (hrun : runEvents es s = .next u) (hu : u.seq = .sRsthi) :
    ∃ before after v, es = before ++ .isrToggle :: after ∧ (∀ i ∈ after, i = .tick) ∧
      runEvents (before ++ [.isrToggle]) s = .next v ∧ v.gate = true := by
  induction es using List.reverseRecOn generalizing u with
  | nil =>
    cases hrun
    exact absurd hu hs
  | append_singleton es i ih =>
    obtain ⟨t, hes, hlast⟩ := runEvents_append_eq_next.mp hrun
    obtain ⟨u', hexec, hend⟩ := runEvents_cons_eq_next.mp hlast
    cases hend
    obtain ⟨-, ⟨rfl, hgate⟩ | ⟨rfl, ht⟩⟩ := exec_to_sRsthi hexec (runEvents_mode_of_sRsthi hs hes) hu
    · exact ⟨es, [], u, rfl, by simp, hrun, hgate⟩
    · obtain ⟨before, after, v, rfl, hticks, hopen, hgate⟩ := ih hes ht
      refine ⟨before, after ++ [.tick], v, by simp, ?_, hopen, hgate⟩
      simpa [or_imp, forall_and] using hticks

/-- Leaving out the ticks loses no other event. -/
theorem count_filter_ne_tick (hi : i ≠ .tick) (es : List Instr) :
    (es.filter (fun i => i ≠ .tick)).count i = es.count i :=
  List.count_filter (by simp [hi])

end

/-- Settles O43: the rising edge has one writer, `S_RSTHI` one way in, and the steps left after a toggle hold the one
pulse or none. -/
theorem resetPulseOnlyOnOpening : Obligations.ResetPulseOnlyOnOpening := by
  unfold Obligations.ResetPulseOnlyOnOpening
  refine ⟨fun i s t => eq_isrRsthi_of_rstOut_rises, fun s u t es hs hrun hrsthi => ?opening,
    fun s a b c es htoggle hrun hret hpor hnoRet => ?pulse⟩
  case opening =>
    obtain ⟨hen, -⟩ := exec_eq_next_iff.mp hrsthi
    exact exists_opening_of_sRsthi hs hrun (enabled_isrRsthi_iff.mp hen).2
  case pulse =>
    obtain ⟨ha, rfl⟩ := inHandler_of_isrToggle htoggle
    obtain ⟨hsteps, rfl⟩ := ha.runEvents_then_isrRet hrun hret hpor hnoRet
    rw [← count_filter_ne_tick (by simp), ← count_filter_ne_tick (i := .isrRstlo) (by simp), hsteps]
    cases hgate : s.gate <;> simp [stepsLeft, afterHandler, pulseSteps, hgate, List.count_replicate]

/-! ### The ticks of a window (R165) -/

/-- Settles O44: the flag is down after the ticks of `es` and up after one more, so that one is the expiry of the
period loaded at the entry. -/
theorem windowLengthIsPeriodPlusLatency : Obligations.WindowLengthIsPeriodPlusLatency := by
  unfold Obligations.WindowLengthIsPeriodPlusLatency
  intro s a u v w x es late hfirst hrun hdown htick hup _ _ henter hpor _ _
  obtain ⟨-, rfl⟩ := inHandler_of_isrEnter hfirst
  have hrunTick : runEvents (es ++ [.tick]) (takeInterrupt s) = .next v :=
    runEvents_append_eq_next.mpr ⟨u, hrun, runEvents_cons_eq_next.mpr ⟨v, htick, rfl⟩⟩
  obtain ⟨-, hbefore⟩ := runEvents_tmr_and_tif henter hpor hrun
  obtain ⟨-, hafter⟩ := runEvents_tmr_and_tif (by simp [henter]) (by simp [hpor]) hrunTick
  have hlt : ¬ticks s.activePeriod ≤ ticksIn es := of_decide_eq_false (hbefore.symm.trans hdown)
  have hle : ticks s.activePeriod ≤ ticksIn (es ++ [.tick]) := of_decide_eq_true (hafter.symm.trans hup)
  have hlast : ticksIn [.tick] = 1 := rfl
  rw [ticksIn_append] at hle
  rw [ticksIn_append, ticksIn_cons, if_pos rfl]
  omega

end Sys2Proof.Machine

/-! ## Proofs: the range selector (`43_range_selector.md`)

What a `POLL` writes, that the base it computes from stays as `INIT` left it, and the ticks of both ranges. -/

namespace Sys2Proof.Machine

open Sys2Proof

/-! ### One iteration (R181) -/

/-- The extended byte as R182 writes it: the byte keeps the product modulo 256. -/
theorem extendedByte_eq_ofNat_mod (base : Byte) :
    extendedByte base = BitVec.ofNat 8 (10 * base.toNat % 256) := by
  rw [← toNat_extendedByte, BitVec.ofNat_toNat, BitVec.setWidth_eq]

/-- Settles O16: the writes are those of `selectRange`, the cell's byte written out for each level. -/
theorem pollSelectsRange : Obligations.PollSelectsRange := by
  unfold Obligations.PollSelectsRange
  refine ⟨rfl, rfl, fun s hrun hseq hidle => ?_, fun s b => exec_eq_notEnabled_of_not enabled_poll_iff⟩
  have hpoll : ∀ b, exec (.poll b) s = .next (selectRange (!b) s) :=
    fun b => exec_of_enabled (enabled_poll_iff.mpr ⟨hrun, hseq, hidle⟩)
  refine ⟨?_, hpoll true⟩
  rw [hpoll false, ← extendedByte_eq_ofNat_mod]
  rfl

/-! ### The base is constant (R182) -/

section

variable {i : Instr} {es : List Instr} {s t : State}

/-- R21: outside `BOOT` the base has no writer but `POR`. -/
theorem exec_basePeriod_of_ne_boot (h : exec i s = .next t) (hboot : s.mode ≠ .boot) (hpor : i ≠ .por) :
    t.basePeriod = s.basePeriod := by
  by_contra hne
  obtain rfl : i = .init := isWriter_of_exec (r := .basePeriod) h hpor (mt BitVec.toNat_inj.mp hne)
  obtain ⟨hen, -⟩ := exec_eq_next_iff.mp h
  exact hboot (enabled_init_iff.mp hen)

/-- A trace with no `POR` leaves the base that `INIT` computed. -/
theorem runEvents_basePeriod (hrun : runEvents es s = .next t) (hboot : s.mode ≠ .boot)
    (hpor : Instr.por ∉ es) : t.basePeriod = s.basePeriod := by
  have hkept : t.mode ≠ .boot ∧ t.basePeriod = s.basePeriod := by
    refine runEvents_invariant (P := fun v => v.mode ≠ .boot ∧ v.basePeriod = s.basePeriod) ?_ hrun ⟨hboot, rfl⟩
    rintro i hi v w ⟨hv, hbase⟩ hexec
    have hnotPor : i ≠ .por := ne_of_mem_of_not_mem hi hpor
    exact ⟨exec_mode_of_ne_boot hexec hv hnotPor ▸ hv, (exec_basePeriod_of_ne_boot hexec hv hnotPor).trans hbase⟩
  exact hkept.2

/-- A `POLL` reads the base and does not write it. -/
theorem exec_poll_basePeriod {b : Bool} (h : exec (.poll b) s = .next t) : t.basePeriod = s.basePeriod := by
  obtain ⟨-, rfl⟩ := exec_eq_next_iff.mp h
  rfl

end

/-- Settles O37: the base a `POLL` reads after the trace is the one of its start. -/
theorem rangeChangeNeverDrifts : Obligations.RangeChangeNeverDrifts := by
  unfold Obligations.RangeChangeNeverDrifts
  intro s t u es hmode hpor hrun
  have hbase : t.basePeriod = s.basePeriod := runEvents_basePeriod hrun (by simp [hmode]) hpor
  refine ⟨fun hpoll => ?normal, fun hpoll => ?extended⟩
  all_goals
    obtain ⟨-, hcell⟩ := exec_poll_mode_and_activePeriod hpoll
    rw [hcell, exec_poll_basePeriod hpoll, hbase]
  case normal => exact ⟨rfl, rfl⟩
  case extended => exact ⟨toNat_extendedByte s.basePeriod, rfl⟩

/-! ### The ticks of the two ranges (R183) -/

/-- R183: the extended bytes from `q = 13` on lie below 128, so a signed reading would find them positive. -/
theorem sint8_extendedByte_neg8_pos {q : Nat} (hge : 13 ≤ q) (hle : q ≤ 25) :
    0 < sint8 (extendedByte (neg8 q)) := by
  have hbyte : (extendedByte (neg8 q)).toNat = 256 - 10 * q := by
    rw [toNat_extendedByte, toNat_neg8 (by omega) (by omega)]
    omega
  rw [sint8, hbyte, if_pos (by omega)]
  omega

/-- Settles O38: a running block's base is `neg8 q` of a legal `q`, and whatever wrote the cell wrote the byte of one
of the two ranges. -/
theorem extendedPeriodIsTenfold : Obligations.ExtendedPeriodIsTenfold := by
  unfold Obligations.ExtendedPeriodIsTenfold
  intro s hinv hrun
  obtain ⟨q, hpos, hle, hbase, hcell⟩ := hinv.run_periods hrun
  have hq : ticks s.basePeriod = q := by rw [hbase, ticks_neg8 hpos (by omega)]
  have hextended : ticks (extendedByte s.basePeriod) = 10 * q := by rw [hbase, ticks_extendedByte_neg8 hpos hle]
  have hpoll : ∀ b t, exec (.poll b) s = .next t → t.activePeriod = rangeByte (!b) s.basePeriod :=
    fun _ _ h => (exec_poll_mode_and_activePeriod h).2
  rw [hq]
  refine ⟨hpos, hle, fun hind => ?normal, fun hind => ?extended, fun t h => ?pollNormal, fun t h => ?pollExtended,
    fun r _ h => ?init, fun hge => ?signed⟩
  case normal =>
    rw [hcell, hind]
    exact hq
  case extended =>
    rw [hcell, hind]
    exact hextended
  case pollNormal =>
    rw [hpoll true t h]
    exact hq
  case pollExtended =>
    rw [hpoll false t h]
    exact hextended
  case init =>
    obtain ⟨-, hloaded⟩ := exec_init_mode_and_activePeriod h
    rw [hloaded hrun, hq]
  case signed =>
    rw [hbase]
    exact sint8_extendedByte_neg8_pos hge hle

end Sys2Proof.Machine

/-! ## Proofs: the exceptional paths (`60_exceptions.md`)

What the model refuses at its boundary, the permanent halt, and a pending interrupt against a `POLL`. -/

namespace Sys2Proof.Machine

open Sys2Proof

/-! ### Where a step stops (R213) -/

/-- What an operation refuses is its own being disabled, by name (R12, R93). -/
theorem exec_eq_refused_iff {i : Instr} {s : State} {r : Refusal} :
    exec i s = .refused r ↔ enabled i s = false ∧ r = .notEnabled i := by
  rw [exec_eq_perform]
  cases enabled i s with
  | true => simp [perform_of_enabled]
  | false => simp [perform_of_disabled, eq_comm]

/-- With no trace left a step performs the free choice and draws once (log 4). -/
theorem step_nil {s : State} (ht : s.trace = []) :
    step s = exec (freeChoice s) { s with draws := s.draws + 1 } := by
  rw [step, fetch_nil s ht]

/-- The draw moves no register, so the free choice completes. -/
theorem exec_freeChoice (s : State) : exec (freeChoice s) { s with draws := s.draws + 1 } =
    .next (effect (freeChoice s) { s with draws := s.draws + 1 }) :=
  exec_of_enabled ((enabled_withDraws _ s _).trans (freeChoice_enabled s))

/-- Settles O7: the operation is the free choice, which is enabled in every state. -/
theorem stepWithoutTraceNeverStops : Obligations.StepWithoutTraceNeverStops := by
  unfold Obligations.StepWithoutTraceNeverStops
  intro s ht
  exact ⟨freeChoice s, _, freeChoice_enabled s, exec_freeChoice s, (step_nil ht).trans (exec_freeChoice s)⟩

/-- Settles O8: with no trace a step completes; on a trace the decoder's answer to the first byte is either the
refusal's reason or the operation refused. -/
theorem stepRefusesOnlyAtBoundary : Obligations.StepRefusesOnlyAtBoundary := by
  unfold Obligations.StepRefusesOnlyAtBoundary
  intro s r hstep
  cases ht : s.trace with
  | nil =>
    rw [step_nil ht, exec_freeChoice] at hstep
    cases hstep
  | cons w rest =>
    refine ⟨w, rest, rfl, ?_⟩
    cases hd : decodeWord w with
    | error e =>
      rw [step_cons_of_error ht hd] at hstep
      cases hstep
      exact .inl ⟨e, rfl, rfl⟩
    | ok i =>
      rw [step_cons ht hd] at hstep
      obtain ⟨hoff, hr⟩ := exec_eq_refused_iff.mp hstep
      rw [enabled_withTrace] at hoff
      exact .inr ⟨i, rfl, hr, exec_ne_next_iff.mpr hoff⟩

/-! ### The permanent halt (R199) -/

/-- A trace with no `POR` that a halted block performs is a row of `TICK`s. -/
theorem eq_tick_of_mem_of_runEvents_halt {es : List Instr} {s u : State} (hrun : runEvents es s = .next u)
    (hpor : Instr.por ∉ es) (hhalt : s.mode = .halt) : ∀ i ∈ es, i = .tick := by
  induction es generalizing s with
  | nil => simp
  | cons a as ih =>
    obtain ⟨ha, has⟩ := not_or.mp (mt List.mem_cons.mpr hpor)
    obtain ⟨t, hexec, hrest⟩ := runEvents_cons_eq_next.mp hrun
    have htick : a = .tick := eq_tick_of_halt hexec hhalt (Ne.symm ha)
    have hmode : t.mode = s.mode := exec_mode_of_ne_boot hexec (by simp [hhalt]) (Ne.symm ha)
    exact List.forall_mem_cons.mpr ⟨htick, ih hrest has (hmode.trans hhalt)⟩

/-- Settles O51: the trace is a row of `TICK`s, whose end state is known. -/
theorem haltIsPermanent : Obligations.HaltIsPermanent := by
  unfold Obligations.HaltIsPermanent
  intro s t es hhalt hpor hrun
  have hticks : ∀ i ∈ es, i = .tick := eq_tick_of_mem_of_runEvents_halt hrun hpor hhalt
  refine ⟨hticks, ?_⟩
  rw [List.eq_replicate_of_mem hticks, runEvents_replicate_tick] at hrun
  cases hrun
  rfl

/-- R199: a running block's configuration is legal, so a block that is not legally configured never runs. -/
theorem StateInv.mode_ne_run {s : State} (h : StateInv s) (hillegal : ¬LegalLaunch s.launch) : s.mode ≠ .run := by
  intro hrun
  obtain ⟨raw, q, hcalc⟩ := h.runLegal hrun
  exact hillegal (legalLaunch_iff.mpr ⟨raw, q, s.basePeriod, s.psSel, hcalc⟩)

/-- Settles O52: such a block is not in `RUN`, where alone the invariant lets the pins leave their reset levels. -/
theorem illegalConfigurationNeverDrivesPins : Obligations.IllegalConfigurationNeverDrivesPins := by
  unfold Obligations.IllegalConfigurationNeverDrivesPins
  intro s hs hillegal
  have hinv := hs.stateInv
  have hmode : s.mode ≠ .run := hinv.mode_ne_run hillegal
  have htie : s.tie = false := Bool.eq_false_iff.mpr (mt hinv.tieRun.mpr hmode)
  obtain ⟨hseq, hgate, hind⟩ := hinv.idle hmode
  exact ⟨hmode, htie, hgate, hinv.rstOut_eq_false (by simp [hseq]), hind⟩

/-! ### A pending interrupt in `RUN` (R201, R204) -/

/-- The entry overwrites the one register the return moves (R156, R163). -/
theorem takeInterrupt_returnFromInterrupt (s : State) : takeInterrupt (returnFromInterrupt s) = takeInterrupt s :=
  rfl

section

variable {s : State}

/-- A pending interrupt of a running block is taken in the main loop. -/
theorem exec_isrEnter_of_pending (hrun : s.mode = .run) (hseq : s.seq = .main) (htif : s.tif = true)
    (htie : s.tie = true) : exec .isrEnter s = .next (takeInterrupt s) :=
  exec_of_enabled (enabled_isrEnter_iff.mpr ⟨hrun, hseq, htif, htie⟩)

/-- A `POLL` gives way to a pending interrupt (D22). -/
theorem exec_poll_of_pending (htif : s.tif = true) (htie : s.tie = true) (b : Bool) :
    exec (.poll b) s = .refused (.notEnabled (.poll b)) :=
  exec_eq_notEnabled_of_not enabled_poll_iff fun ⟨_, _, hidle⟩ => hidle ⟨htif, htie⟩

end

/-- Settles O11: the return moves `SEQ` alone, so a new entry finds the interrupt still pending. -/
theorem pendingInterruptGoesFirst : Obligations.PendingInterruptGoesFirst := by
  unfold Obligations.PendingInterruptGoesFirst
  refine fun s hrun htif htie => ⟨fun hseq => ?main, fun hseq => ?ret⟩
  case main => exact ⟨exec_poll_of_pending htif htie, exec_isrEnter_of_pending hrun hseq htif htie⟩
  case ret =>
    have henter : exec .isrEnter (returnFromInterrupt s) = .next (takeInterrupt (returnFromInterrupt s)) :=
      exec_isrEnter_of_pending hrun (returnFromInterrupt_seq s) htif htie
    rw [takeInterrupt_returnFromInterrupt] at henter
    exact ⟨returnFromInterrupt s, exec_of_enabled (enabled_isrRet_iff.mpr ⟨hrun, hseq⟩), htif, henter⟩

end Sys2Proof.Machine

/-! ## Proofs: reset and infinite runs (`70_reset_and_hazards.md`)

What a `POR` leaves, and what the premises `FITS`, `LAT(L)` and `FAIR` make of an infinite run: R247's gate wave. -/

namespace Sys2Proof.Machine

open Sys2Proof

/-! ### `POR` (R231) -/

/-- `POR` is a step in every state, and its result depends on the launch and the model's own fields only. -/
theorem exec_por (s : State) : exec .por s = .next (State.resetWith s.launch s.trace s.draws) :=
  exec_of_enabled enabled_por

/-- Settles O12: the state after a `POR` is a reset state, whose fields are R231's. -/
theorem porWritesResetValues : Obligations.PorWritesResetValues := by
  unfold Obligations.PorWritesResetValues
  refine ⟨rfl, fun s => ⟨State.resetWith s.launch s.trace s.draws, exec_por s, by simp⟩,
    fun s u hlaunch htrace hdraws => ?_⟩
  rw [exec_por, exec_por, hlaunch, htrace, hdraws]

/-- Settles O46: `State.reset` is one of the reset states. -/
theorem resetMeetsInvariant : Obligations.ResetMeetsInvariant := by
  unfold Obligations.ResetMeetsInvariant
  exact ⟨stateInv_resetWith, stateInv_resetWith Launch.programP1 [] 0⟩

/-! ### The pins of a run whose launch is not legal (R247) -/

/-- Every state of a run meets the invariant. -/
theorem IsRun.stateInv {ev : Nat → Instr} {st : Nat → State} (hrun : IsRun ev st) (n : Nat) : StateInv (st n) := by
  obtain ⟨l, tr, d, hstart⟩ := hrun.start
  exact hrun.invariant (hstart ▸ stateInv_resetWith l tr d) (fun _ _ _ h hexec => h.of_exec hexec) n

/-- R42, R199: a block that is not legally configured keeps its pins at their reset levels. -/
theorem StateInv.pins_of_not_legal {s : State} (h : StateInv s) (hillegal : ¬LegalLaunch s.launch) :
    s.gate = s.launch.gateReset ∧ s.rstOut = false ∧ s.ind = false := by
  obtain ⟨hseq, hgate, hind⟩ := h.idle (h.mode_ne_run hillegal)
  exact ⟨hgate, h.rstOut_eq_false (by simp [hseq]), hind⟩

/-- Settles O57: every state of the run meets the invariant under the one launch of its start. -/
theorem illegalRunNeverMovesPins : Obligations.IllegalRunNeverMovesPins := by
  unfold Obligations.IllegalRunNeverMovesPins
  intro ev st hrun hillegal n
  obtain ⟨hgate, hrst, hind⟩ := (hrun.stateInv n).pins_of_not_legal (hrun.launch_eq n ▸ hillegal)
  obtain ⟨hgate₀, hrst₀, hind₀⟩ := (hrun.stateInv 0).pins_of_not_legal hillegal
  rw [hrun.launch_eq n] at hgate
  exact ⟨hgate, hrst, hind, hgate.trans hgate₀.symm, hrst.trans hrst₀.symm, hind.trans hind₀.symm⟩

/-! ### The events between two numbers of a run -/

section

variable {ev : Nat → Instr} {st : Nat → State} {l m n : Nat} {i : Instr}

theorem mem_eventsBetween : i ∈ eventsBetween ev m n ↔ ∃ j, m ≤ j ∧ j < n ∧ ev j = i := by
  simp only [eventsBetween, List.mem_map, List.mem_range'_1, and_assoc]
  refine exists_congr fun j => and_congr_right fun hj => ?_
  rw [show j < m + (n - m) ↔ j < n by omega]

theorem notMem_eventsBetween (h : ∀ j, m ≤ j → j < n → ev j ≠ i) : i ∉ eventsBetween ev m n := fun hmem => by
  obtain ⟨j, hmj, hjn, hj⟩ := mem_eventsBetween.mp hmem
  exact h j hmj hjn hj

@[simp] theorem eventsBetween_self : eventsBetween ev m m = [] := by simp [eventsBetween]

theorem eventsBetween_append (hlm : l ≤ m) (hmn : m ≤ n) :
    eventsBetween ev l m ++ eventsBetween ev m n = eventsBetween ev l n := by
  have hranges := List.range'_append_1 (s := l) (m := m - l) (n := n - m)
  rw [show l + (m - l) = m by omega, show m - l + (n - m) = n - l by omega] at hranges
  rw [eventsBetween, eventsBetween, eventsBetween, ← List.map_append, hranges]

@[simp] theorem eventsBetween_succ : eventsBetween ev m (m + 1) = [ev m] := by simp [eventsBetween]

theorem eventsBetween_eq_cons (h : m < n) : eventsBetween ev m n = ev m :: eventsBetween ev (m + 1) n := by
  rw [← eventsBetween_append m.le_succ h, eventsBetween_succ, List.singleton_append]

theorem eventsBetween_eq_concat (h : m ≤ n) : eventsBetween ev m (n + 1) = eventsBetween ev m n ++ [ev n] := by
  rw [← eventsBetween_append h n.le_succ, eventsBetween_succ]

/-- A stretch of a run is a finite trace from its first state to its last. -/
theorem IsRun.runEvents_eventsBetween (hrun : IsRun ev st) (h : m ≤ n) :
    runEvents (eventsBetween ev m n) (st m) = .next (st n) := by
  induction n, h using Nat.le_induction with
  | base => rw [eventsBetween_self, runEvents_nil]
  | succ n h ih =>
    rw [eventsBetween_eq_concat h]
    exact runEvents_append_eq_next.mpr ⟨st n, ih, runEvents_cons_eq_next.mpr ⟨st (n + 1), hrun.steps n, rfl⟩⟩

/-- An event of a run was enabled at the state it met, and the next state is what it writes. -/
theorem IsRun.enabled_and_effect (hrun : IsRun ev st) (hi : ev n = i) :
    enabled i (st n) = true ∧ effect i (st n) = st (n + 1) :=
  exec_eq_next_iff.mp (hi ▸ hrun.steps n)

/-! ### The distance of two entries (R247 (3)) -/

/-- Between two numbers where the flag is down and up there is an event that sets it. -/
theorem exists_tif_rise (h : m ≤ n) (hm : (st m).tif = false) (hn : (st n).tif = true) :
    ∃ j, m ≤ j ∧ j < n ∧ (st j).tif = false ∧ (st (j + 1)).tif = true := by
  induction n, h using Nat.le_induction with
  | base => simp [hm] at hn
  | succ n h ih =>
    cases hmid : (st n).tif with
    | false => exact ⟨n, h, n.lt_succ_self, hmid, hn⟩
    | true =>
      obtain ⟨j, hmj, hjn, hrise⟩ := ih hmid
      exact ⟨j, hmj, hjn.trans n.lt_succ_self, hrise⟩

/-- Such an event is an expiry. -/
theorem IsRun.expiryAt_of_tif_rises (hrun : IsRun ev st) (hpor : ev n ≠ .por) (hdown : (st n).tif = false)
    (hup : (st (n + 1)).tif = true) : ExpiryAt ev st n := by
  have htick : ev n = .tick := eq_tick_of_tif_rises (hrun.steps n) hpor hdown hup
  obtain ⟨-, hnext⟩ := hrun.enabled_and_effect htick
  refine ⟨htick, ?_⟩
  simpa [← hnext, effect, tifAfterTick, expires, hdown] using hup

theorem NoServiceBetween.mono {a b : Nat} (h : NoServiceBetween ev m n) (ha : m ≤ a) (hb : b ≤ n) :
    NoServiceBetween ev a b := fun j haj hjb => h j (ha.trans_lt haj) (hjb.trans_le hb)

/-- Neither an entry nor a reset is among the events of a stretch without service. -/
theorem NoServiceBetween.notMem (h : NoServiceBetween ev m n) :
    Instr.isrEnter ∉ eventsBetween ev (m + 1) n ∧ Instr.por ∉ eventsBetween ev (m + 1) n :=
  ⟨notMem_eventsBetween fun j hmj hjn => (h j hmj hjn).1, notMem_eventsBetween fun j hmj hjn => (h j hmj hjn).2⟩

/-- Between two consecutive entries stands the expiry that the second one serves. -/
theorem IsRun.exists_expiry_between_entries (hrun : IsRun ev st) (hlt : m < n) (hm : ev m = .isrEnter)
    (hn : ev n = .isrEnter) (hquiet : NoServiceBetween ev m n) :
    ∃ j, m < j ∧ j < n ∧ (st j).tif = false ∧ (st (j + 1)).tif = true ∧ ExpiryAt ev st j := by
  obtain ⟨-, hentered⟩ := hrun.enabled_and_effect hm
  obtain ⟨hen, -⟩ := hrun.enabled_and_effect hn
  obtain ⟨-, -, htif, -⟩ := enabled_isrEnter_iff.mp hen
  obtain ⟨j, hmj, hjn, hdown, hup⟩ := exists_tif_rise (st := st) hlt (by simp [← hentered, effect]) htif
  exact ⟨j, hmj, hjn, hdown, hup, hrun.expiryAt_of_tif_rises (hquiet j hmj hjn).2 hdown hup⟩

/-- R165 on a run: the ticks between two consecutive entries are the period loaded at the first and those after the
expiry that set the flag. -/
theorem IsRun.ticksBetween_entries {j : Nat} (hrun : IsRun ev st) (hm : ev m = .isrEnter) (hn : ev n = .isrEnter)
    (hquiet : NoServiceBetween ev m n) (hmj : m < j) (hjn : j < n) (hdown : (st j).tif = false)
    (hup : (st (j + 1)).tif = true) (htick : ev j = .tick) :
    ticksBetween ev m n = ticks (st m).activePeriod + ticksBetween ev (j + 1) n := by
  have hsplit : eventsBetween ev m n =
      .isrEnter :: (eventsBetween ev (m + 1) j ++ .tick :: eventsBetween ev (j + 1) n) := by
    rw [eventsBetween_eq_cons (hmj.trans hjn), ← eventsBetween_append hmj hjn.le, eventsBetween_eq_cons hjn, hm, htick]
  obtain ⟨henter, hpor⟩ := (hquiet.mono le_rfl hjn.le).notMem
  obtain ⟨henterLate, hporLate⟩ := (hquiet.mono hmj.le le_rfl).notMem
  have hwindow := windowLengthIsPeriodPlusLatency (st m) (st (m + 1)) (st j) (st (j + 1)) (st n) (st (n + 1))
    (eventsBetween ev (m + 1) j) (eventsBetween ev (j + 1) n) (hm ▸ hrun.steps m) (hrun.runEvents_eventsBetween hmj)
    hdown (htick ▸ hrun.steps j) hup (hrun.runEvents_eventsBetween hjn) (hn ▸ hrun.steps n) henter hpor henterLate
    hporLate
  rw [ticksBetween, hsplit, ticksIn_cons, if_neg (by simp), hwindow, ticksBetween, Nat.add_zero]

end

/-- Settles O54: `FITS` puts the expiry between the entries into the main loop, so that `LAT(L)` bounds the ticks
after it. -/
theorem entryDistanceWithinLatency : Obligations.EntryDistanceWithinLatency := by
  unfold Obligations.EntryDistanceWithinLatency
  intro L ev st m n hrun hfits hlat hlt hm hn hquiet
  obtain ⟨j, hmj, hjn, hdown, hup, hexp⟩ := hrun.exists_expiry_between_entries hlt hm hn hquiet
  have hlate : ticksBetween ev (j + 1) n ≤ L :=
    hlat j n hjn hexp hdown (hfits j hexp) hn (hquiet.mono hmj.le le_rfl)
  obtain ⟨htick, -⟩ := hexp
  rw [hrun.ticksBetween_entries hm hn hquiet hmj hjn hdown hup htick]
  omega

/-! ### A legal launch comes to run (R246 (d), R247) -/

section

variable {ev : Nat → Instr} {st : Nat → State} {k m n : Nat}

/-- A legally configured block never halts. -/
theorem IsRun.mode_ne_halt (hrun : IsRun ev st) (hlegal : LegalLaunch (st 0).launch) (n : Nat) :
    (st n).mode ≠ .halt := by
  intro hhalt
  obtain ⟨c, hcalc, -⟩ := (hrun.stateInv n).haltCause hhalt
  exact not_legalLaunch_iff.mpr ⟨c, hcalc⟩ (hrun.launch_eq n ▸ hlegal)

/-- Its `INIT` starts it. -/
theorem IsRun.mode_after_init (hrun : IsRun ev st) (hlegal : LegalLaunch (st 0).launch) (hn : ev n = .init) :
    (st (n + 1)).mode = .run := by
  obtain ⟨hboot, -⟩ := exec_init_mode_and_activePeriod (hn ▸ hrun.steps n)
  cases hmode : (st (n + 1)).mode with
  | boot => exact absurd hmode hboot
  | run => rfl
  | halt => exact absurd hmode (hrun.mode_ne_halt hlegal (n + 1))

/-- Without a `POR` a running block goes on running. -/
theorem IsRun.mode_eq_run_of_le (hrun : IsRun ev st) (hpor : ∀ j, k ≤ j → ev j ≠ .por) (hmode : (st k).mode = .run)
    (h : k ≤ n) : (st n).mode = .run := by
  induction n, h using Nat.le_induction with
  | base => exact hmode
  | succ n h ih => exact (exec_mode_of_ne_boot (hrun.steps n) (by simp [ih]) (hpor n h)).trans ih

/-- From some event on the block runs: it does already, or it is in `BOOT` and `FAIR` brings the `INIT`. -/
theorem IsRun.exists_forall_mode_eq_run (hrun : IsRun ev st) (hfair : Fair ev st)
    (hlegal : LegalLaunch (st 0).launch) (hpor : ∀ j, k ≤ j → ev j ≠ .por) :
    ∃ r, k ≤ r ∧ ∀ n, r ≤ n → (st n).mode = .run := by
  have hstarted : ∃ r, k ≤ r ∧ (st r).mode = .run := by
    cases hmode : (st k).mode with
    | boot =>
      obtain ⟨m, hkm, hm⟩ := hfair.boots k hmode
      exact ⟨m + 1, by omega, hrun.mode_after_init hlegal hm⟩
    | run => exact ⟨k, le_rfl, hmode⟩
    | halt => exact absurd hmode (hrun.mode_ne_halt hlegal k)
  obtain ⟨r, hkr, hmode⟩ := hstarted
  exact ⟨r, hkr, fun n hn => hrun.mode_eq_run_of_le (fun j hj => hpor j (hkr.trans hj)) hmode hn⟩

/-! ### An activation returns (R246 (b)) -/

/-- With no `POR` to come, an enabled step of the handler is performed. -/
theorem Fair.exists_performed {i : Instr} (hfair : Fair ev st) (hpor : ∀ j, k ≤ j → ev j ≠ .por) (hkn : k ≤ n)
    (hi : isHandlerStep i = true) (hen : enabled i (st n) = true) : ∃ m, n ≤ m ∧ ev m = i := by
  obtain ⟨m, hnm, hm | hm⟩ := hfair.handler n i hi hen
  · exact ⟨m, hnm, hm⟩
  · exact absurd hm (hpor m (hkn.trans hnm))

/-- Outside the main loop the operation that is due is a step of the handler. -/
theorem isHandlerStep_dueOperation {s : State} (hseq : s.seq ≠ .main) : isHandlerStep (dueOperation s) = true := by
  unfold dueOperation
  split
  case h_1 hmain => exact absurd hmain hseq
  case h_4 => split <;> rfl
  all_goals rfl

/-- A trace with no `POR` and no return stays inside the activation. -/
theorem InHandler.of_runEvents {es : List Instr} {s u : State} (hs : InHandler s) (hrun : runEvents es s = .next u)
    (hpor : Instr.por ∉ es) (hret : Instr.isrRet ∉ es) : InHandler u :=
  runEvents_invariant (P := InHandler) (fun _ hi _ _ hv hexec =>
    (hv.progress hexec (ne_of_mem_of_not_mem hi hpor) (ne_of_mem_of_not_mem hi hret)).inside) hrun hs

/-- Any event of such a trace but a tick is one step less to the return. -/
theorem InHandler.length_stepsLeft_lt {es : List Instr} {i : Instr} {s u : State} (hs : InHandler s)
    (hrun : runEvents es s = .next u) (hpor : Instr.por ∉ es) (hret : Instr.isrRet ∉ es) (hmem : i ∈ es)
    (hi : i ≠ .tick) : (stepsLeft u).length < (stepsLeft s).length := by
  obtain ⟨hsteps, -⟩ := hs.runEvents_progress hrun hpor hret
  have hpos : 0 < (es.filter (fun i => i ≠ .tick)).length :=
    List.length_pos_of_mem (List.mem_filter.mpr ⟨hmem, decide_eq_true hi⟩)
  rw [← hsteps, List.length_append]
  omega

/-- Inside an activation the return comes: `FAIR` performs the operation that is due, which leaves fewer steps to the
return. -/
theorem IsRun.exists_isrRet (hrun : IsRun ev st) (hfair : Fair ev st) (hpor : ∀ j, k ≤ j → ev j ≠ .por)
    (hkn : k ≤ n) (hs : InHandler (st n)) : ∃ m, n ≤ m ∧ ev m = .isrRet := by
  induction hc : (stepsLeft (st n)).length using Nat.strong_induction_on generalizing n with
  | _ c ih =>
    have hhandler := isHandlerStep_dueOperation hs.active
    obtain ⟨m, hnm, hm⟩ := hfair.exists_performed hpor hkn hhandler (enabled_dueOperation hs.running)
    have hle : n ≤ m + 1 := by omega
    by_cases hret : Instr.isrRet ∈ eventsBetween ev n (m + 1)
    · obtain ⟨j, hnj, -, hj⟩ := mem_eventsBetween.mp hret
      exact ⟨j, hnj, hj⟩
    · have htrace := hrun.runEvents_eventsBetween hle
      have hnoPor : Instr.por ∉ eventsBetween ev n (m + 1) :=
        notMem_eventsBetween fun j hnj _ => hpor j (hkn.trans hnj)
      have hperformed : dueOperation (st n) ∈ eventsBetween ev n (m + 1) :=
        mem_eventsBetween.mpr ⟨m, hnm, m.lt_succ_self, hm⟩
      have hfewer := hs.length_stepsLeft_lt htrace hnoPor hret hperformed
        fun htick => by simp [htick, isHandlerStep] at hhandler
      obtain ⟨j, hmj, hj⟩ := ih _ (hc ▸ hfewer) (hkn.trans hle) (hs.of_runEvents htrace hnoPor hret) rfl
      exact ⟨j, hle.trans hmj, hj⟩

/-! ### The gate toggles for ever (R247 (1)) -/

/-- Under `FAIR` any number of ticks passes (R246 (a)). -/
theorem Fair.exists_le_ticksBetween (hfair : Fair ev st) (n c : Nat) : ∃ m, n ≤ m ∧ c ≤ ticksBetween ev n m := by
  induction c with
  | zero => exact ⟨n, le_rfl, Nat.zero_le _⟩
  | succ c ih =>
    obtain ⟨m, hnm, hc⟩ := ih
    obtain ⟨j, hmj, hj⟩ := hfair.ticks m
    refine ⟨j + 1, by omega, ?_⟩
    rw [ticksBetween] at hc
    rw [ticksBetween, ← eventsBetween_append hnm (by omega : m ≤ j + 1), eventsBetween_eq_concat hmj, ticksIn_append,
      ticksIn_append, hj]
    have hlast : ticksIn [.tick] = 1 := rfl
    omega

/-- Only an entry leaves the main loop (R27). -/
theorem exec_seq_of_main {i : Instr} {s t : State} (h : exec i s = .next t) (hseq : s.seq = .main)
    (henter : i ≠ .isrEnter) (hpor : i ≠ .por) : t.seq = .main := by
  obtain ⟨hen, rfl⟩ := exec_eq_next_iff.mp h
  cases i with
  | por => exact absurd rfl hpor
  | isrEnter => exact absurd rfl henter
  | init | tick | poll b => rw [effect_seq s rfl hpor, hseq]
  | _ => simp [hseq] at hen

theorem IsRun.seq_eq_main_of_le (hrun : IsRun ev st) (henter : ∀ j, n ≤ j → ev j ≠ .isrEnter)
    (hpor : ∀ j, n ≤ j → ev j ≠ .por) (hseq : (st n).seq = .main) (h : n ≤ m) : (st m).seq = .main := by
  induction m, h using Nat.le_induction with
  | base => exact hseq
  | succ m h ih => exact exec_seq_of_main (hrun.steps m) ih (henter m h) (hpor m h)

/-- From the main loop of a running block an entry comes: were there none, the ticks would set the flag there, and
`FAIR` would perform the entry. -/
theorem IsRun.exists_isrEnter_of_main (hrun : IsRun ev st) (hfair : Fair ev st) (hpor : ∀ j, k ≤ j → ev j ≠ .por)
    (hkn : k ≤ n) (hmode : (st n).mode = .run) (hseq : (st n).seq = .main) : ∃ m, n ≤ m ∧ ev m = .isrEnter := by
  by_contra! hnone
  have hporLater : ∀ j, n ≤ j → ev j ≠ .por := fun j hj => hpor j (hkn.trans hj)
  obtain ⟨m, hnm, hticks⟩ := hfair.exists_le_ticksBetween n (ticks (st n).tmr)
  have hmain : (st m).seq = .main := hrun.seq_eq_main_of_le hnone hporLater hseq hnm
  obtain ⟨-, htif⟩ := runEvents_tmr_and_tif (notMem_eventsBetween fun j hj _ => hnone j hj)
    (notMem_eventsBetween fun j hj _ => hporLater j hj) (hrun.runEvents_eventsBetween hnm)
  have hflag : (st m).tif = true := by rw [htif, ← ticksBetween, decide_eq_true hticks, Bool.or_true]
  have hmodeLater : (st m).mode = .run := hrun.mode_eq_run_of_le hporLater hmode hnm
  have hen : enabled .isrEnter (st m) = true :=
    enabled_isrEnter_iff.mpr ⟨hmodeLater, hmain, hflag, (hrun.stateInv m).tieRun.mp hmodeLater⟩
  obtain ⟨j, hmj, hj⟩ := hfair.exists_performed hpor (hkn.trans hnm) rfl hen
  exact hnone j (hnm.trans hmj) hj

/-- A running block comes to an entry, from inside a handler by way of its return. -/
theorem IsRun.exists_isrEnter (hrun : IsRun ev st) (hfair : Fair ev st) (hpor : ∀ j, k ≤ j → ev j ≠ .por)
    (hkn : k ≤ n) (hmode : (st n).mode = .run) : ∃ m, n ≤ m ∧ ev m = .isrEnter := by
  by_cases hseq : (st n).seq = .main
  · exact hrun.exists_isrEnter_of_main hfair hpor hkn hmode hseq
  · obtain ⟨j, hnj, hj⟩ := hrun.exists_isrRet hfair hpor hkn ⟨hmode, hseq⟩
    obtain ⟨hen, hnext⟩ := hrun.enabled_and_effect hj
    obtain ⟨hrunning, -⟩ := enabled_isrRet_iff.mp hen
    obtain ⟨m, hjm, hm⟩ := hrun.exists_isrEnter_of_main hfair hpor (n := j + 1) (by omega)
      (by simp [← hnext, effect, hrunning]) (by simp [← hnext, effect])
    exact ⟨m, by omega, hm⟩

/-- After an entry the toggle is due, and `FAIR` performs it. -/
theorem IsRun.exists_isrToggle (hrun : IsRun ev st) (hfair : Fair ev st) (hpor : ∀ j, k ≤ j → ev j ≠ .por)
    (hkn : k ≤ n) (hmode : (st n).mode = .run) : ∃ m, n ≤ m ∧ ev m = .isrToggle := by
  obtain ⟨j, hnj, hj⟩ := hrun.exists_isrEnter hfair hpor hkn hmode
  obtain ⟨hinside, hnext⟩ := inHandler_of_isrEnter (hj ▸ hrun.steps j)
  have hen : enabled .isrToggle (st (j + 1)) = true := enabled_isrToggle_iff.mpr ⟨hinside.running, by simp [hnext]⟩
  obtain ⟨m, hjm, hm⟩ := hfair.exists_performed hpor (by omega) rfl hen
  exact ⟨m, by omega, hm⟩

end

/-- Settles O55: from the event on from which the block runs, a toggle comes after every event. -/
theorem gateTogglesInfinitelyOften : Obligations.GateTogglesInfinitelyOften := by
  unfold Obligations.GateTogglesInfinitelyOften
  intro ev st k hrun hfair hlegal hpor n
  obtain ⟨r, hkr, hmode⟩ := hrun.exists_forall_mode_eq_run hfair hlegal hpor
  obtain ⟨m, hm, htoggle⟩ := hrun.exists_isrToggle hfair hpor (n := max n r) (by omega) (hmode _ (by omega))
  obtain ⟨-, hnext⟩ := hrun.enabled_and_effect htoggle
  exact ⟨m, by omega, htoggle, by rw [← hnext, effect, toggleGate_gate]⟩

/-! ### The activations of a run (R247 (2), (4)) -/

section

variable {ev : Nat → Instr} {st : Nat → State} {k m n : Nat}

/-- An entry with no `POR` after it begins an activation: the first return after it ends it. -/
theorem IsRun.exists_isActivation (hrun : IsRun ev st) (hfair : Fair ev st) (hpor : ∀ j, k ≤ j → ev j ≠ .por)
    (hkm : k ≤ m) (hm : ev m = .isrEnter) : ∃ n, IsActivation ev m n := by
  obtain ⟨hinside, -⟩ := inHandler_of_isrEnter (hm ▸ hrun.steps m)
  have hret : ∃ n, m < n ∧ ev n = .isrRet := hrun.exists_isrRet hfair hpor (n := m + 1) (by omega) hinside
  obtain ⟨horder, hfirst⟩ := Nat.find_spec hret
  exact ⟨Nat.find hret, horder, hm, hfirst, fun j hmj hjn =>
    ⟨fun hj => Nat.find_min hret hjn ⟨hmj, hj⟩, hpor j (by omega)⟩⟩

/-- An activation is a finite trace between its entry and its return, with no other return and no reset. -/
theorem IsActivation.notMem (h : IsActivation ev m n) :
    Instr.por ∉ eventsBetween ev (m + 1) n ∧ Instr.isrRet ∉ eventsBetween ev (m + 1) n :=
  ⟨notMem_eventsBetween fun j hmj hjn => (h.inside j hmj hjn).2,
    notMem_eventsBetween fun j hmj hjn => (h.inside j hmj hjn).1⟩

/-- R155's table on a run: the steps of an activation are counted by the gate it finds. -/
theorem IsActivation.filter_eventsBetween (h : IsActivation ev m n) (hrun : IsRun ev st) :
    (eventsBetween ev m n).filter (fun i => i ≠ .tick) = .isrEnter ::
      if (st m).gate then [.isrToggle]
      else [.isrToggle, .isrRsthi] ++ List.replicate (st m).launch.rstPulseNops .isrNop ++ [.isrRstlo] := by
  obtain ⟨hpor, hret⟩ := h.notMem
  rw [eventsBetween_eq_cons h.order, h.enter, List.filter_cons_of_pos (by simp)]
  exact congrArg _ (activationHasItsSteps _ _ _ _ _ (h.enter ▸ hrun.steps m) (hrun.runEvents_eventsBetween h.order)
    (h.ret ▸ hrun.steps n) hpor hret)

theorem IsActivation.count_isrToggle (h : IsActivation ev m n) (hrun : IsRun ev st) :
    (eventsBetween ev m n).count .isrToggle = 1 := by
  rw [← count_filter_ne_tick (by simp), h.filter_eventsBetween hrun]
  cases (st m).gate <;> simp [List.count_replicate]

theorem IsActivation.count_pulse (h : IsActivation ev m n) (hrun : IsRun ev st) :
    (eventsBetween ev m n).count .isrRsthi = (if (st m).gate then 0 else 1) ∧
    (eventsBetween ev m n).count .isrRstlo = (if (st m).gate then 0 else 1) := by
  rw [← count_filter_ne_tick (by simp), ← count_filter_ne_tick (i := .isrRstlo) (by simp), h.filter_eventsBetween hrun]
  cases (st m).gate <;> simp [List.count_replicate]

/-- R164 on a run: an activation leaves the gate complemented. -/
theorem IsActivation.gate (h : IsActivation ev m n) (hrun : IsRun ev st) : (st (n + 1)).gate = !(st m).gate := by
  obtain ⟨hpor, hret⟩ := h.notMem
  exact congrArg State.gate (activationNetEffect _ _ _ _ _ (h.enter ▸ hrun.steps m)
    (hrun.runEvents_eventsBetween h.order) (h.ret ▸ hrun.steps n) hpor hret)

/-- The reset pin is low at both ends of an activation, which stand in the main loop. -/
theorem IsActivation.rstOut (h : IsActivation ev m n) (hrun : IsRun ev st) :
    (st m).rstOut = false ∧ (st (n + 1)).rstOut = false := by
  obtain ⟨hen, -⟩ := hrun.enabled_and_effect h.enter
  obtain ⟨-, hseq, -⟩ := enabled_isrEnter_iff.mp hen
  obtain ⟨-, hnext⟩ := hrun.enabled_and_effect h.ret
  exact ⟨(hrun.stateInv m).rstOut_eq_false (by simp [hseq]),
    (hrun.stateInv (n + 1)).rstOut_eq_false (by simp [← hnext, effect])⟩

/-! ### The edges of `RST_OUT` (R247 (4)) -/

/-- `RST_OUT` falls only by `ISR.RSTLO`, `POR` left out: its other writer raises it. -/
theorem eq_isrRstlo_of_rstOut_falls {i : Instr} {s t : State} (h : exec i s = .next t) (hpor : i ≠ .por)
    (hs : s.rstOut = true) (ht : t.rstOut = false) : i = .isrRstlo := by
  obtain rfl | hrstlo := isWriter_of_exec (r := .rstOut) h hpor (by simp [readReg, hs, ht])
  · obtain ⟨-, rfl⟩ := exec_eq_next_iff.mp h
    simp [effect] at ht
  · exact hrstlo

/-- Under the invariant `ISR.RSTHI` finds the pin low and `ISR.RSTLO` finds it high. -/
theorem IsRun.rstOut_edges (hrun : IsRun ev st) (hpor : ev n ≠ .por) :
    ((st n).rstOut = false ∧ (st (n + 1)).rstOut = true ↔ ev n = .isrRsthi) ∧
    ((st n).rstOut = true ∧ (st (n + 1)).rstOut = false ↔ ev n = .isrRstlo) := by
  have hstep := hrun.steps n
  have hinv := hrun.stateInv n
  refine ⟨⟨fun ⟨hlow, hhigh⟩ => eq_isrRsthi_of_rstOut_rises hstep hlow hhigh, fun hrsthi => ?rise⟩,
    ⟨fun ⟨hhigh, hlow⟩ => eq_isrRstlo_of_rstOut_falls hstep hpor hhigh hlow, fun hrstlo => ?fall⟩⟩
  case rise =>
    obtain ⟨hen, hnext⟩ := hrun.enabled_and_effect hrsthi
    obtain ⟨-, hseq⟩ := enabled_isrRsthi_iff.mp hen
    exact ⟨hinv.rstOut_eq_false (by simp [hseq]), by simp [← hnext, effect]⟩
  case fall =>
    obtain ⟨hen, hnext⟩ := hrun.enabled_and_effect hrstlo
    obtain ⟨-, hseq, -⟩ := enabled_isrRstlo_iff.mp hen
    exact ⟨hinv.pulse.mpr hseq, by simp [← hnext, effect]⟩

/-! ### The period at an entry (R247 (5)) -/

/-- From outside `BOOT`, with neither a `POLL` nor a `POR` on the way, an entry finds the block running since then,
with the cell and the base as they were. -/
theorem IsRun.periods_at_entry (hrun : IsRun ev st) (h : n ≤ m) (hm : ev m = .isrEnter)
    (hboot : (st n).mode ≠ .boot) (hpor : ∀ j, n ≤ j → ev j ≠ .por)
    (hpoll : ∀ j, n ≤ j → j < m → ∀ b, ev j ≠ .poll b) :
    (st n).mode = .run ∧ (st m).activePeriod = (st n).activePeriod ∧ (st m).basePeriod = (st n).basePeriod := by
  have htrace := hrun.runEvents_eventsBetween h
  have hnoPor : Instr.por ∉ eventsBetween ev n m := notMem_eventsBetween fun j hj _ => hpor j hj
  have hnoPoll : ∀ b, Instr.poll b ∉ eventsBetween ev n m := fun b =>
    notMem_eventsBetween fun j hnj hjm => hpoll j hnj hjm b
  obtain ⟨hmode, hcell⟩ := runEvents_mode_and_activePeriod htrace hboot hnoPor hnoPoll
  obtain ⟨hrunning, -⟩ := exec_isrEnter_mode_and_tmr (hm ▸ hrun.steps m)
  exact ⟨hmode.symm.trans hrunning, hcell, runEvents_basePeriod htrace hboot hnoPor⟩

/-- An entry whose latest `POLL` is event `n` finds the cell with the byte of the range that was sampled. -/
theorem IsRun.ticks_activePeriod_of_poll {b : Bool} (hrun : IsRun ev st) (h : n < m) (hm : ev m = .isrEnter)
    (hpor : ∀ j, n ≤ j → ev j ≠ .por) (hpoll : ∀ j, n < j → j < m → ∀ b, ev j ≠ .poll b) (hn : ev n = .poll b) :
    ticks (st m).activePeriod = (if b then 1 else 10) * ticks (st m).basePeriod := by
  have hexec : exec (.poll b) (st n) = .next (st (n + 1)) := hn ▸ hrun.steps n
  have hbase := exec_poll_basePeriod hexec
  obtain ⟨hmode, -⟩ := exec_poll_mode_and_activePeriod hexec
  obtain ⟨hen, -⟩ := hrun.enabled_and_effect hn
  obtain ⟨hmodeBefore, -⟩ := enabled_poll_iff.mp hen
  obtain ⟨-, hcellKept, hbaseKept⟩ :=
    hrun.periods_at_entry h hm (by simp [hmode]) (fun j hj => hpor j (by omega)) hpoll
  obtain ⟨-, -, -, -, hnormal, hextended, -, -⟩ := extendedPeriodIsTenfold (st n) (hrun.stateInv n) hmodeBefore
  rw [hcellKept, hbaseKept, hbase]
  cases b with
  | true => simpa using hnormal _ hexec
  | false => simpa using hextended _ hexec

/-- An entry that follows an `INIT` with no `POLL` between finds the base in the cell. -/
theorem IsRun.activePeriod_of_init (hrun : IsRun ev st) (h : n < m) (hm : ev m = .isrEnter)
    (hpor : ∀ j, n ≤ j → ev j ≠ .por) (hpoll : ∀ j, n < j → j < m → ∀ b, ev j ≠ .poll b) (hn : ev n = .init) :
    (st m).activePeriod = (st m).basePeriod := by
  obtain ⟨hboot, hcell⟩ := exec_init_mode_and_activePeriod (hn ▸ hrun.steps n)
  obtain ⟨hmode, hcellKept, hbaseKept⟩ :=
    hrun.periods_at_entry h hm hboot (fun j hj => hpor j (by omega)) hpoll
  rw [hcellKept, hbaseKept, hcell hmode]

end

/-- Settles O56: R247's conclusions one by one, (1) and (3) as O55 and O54 state them. -/
theorem premisesGiveTheGateWave : Obligations.PremisesGiveTheGateWave := by
  unfold Obligations.PremisesGiveTheGateWave
  intro L ev st k hrun hfair hfits hlat hlegal _ hpor
  exact {
    toggles := gateTogglesInfinitelyOften ev st k hrun hfair hlegal hpor
    returns := fun m hkm hm => hrun.exists_isActivation hfair hpor hkm hm
    togglesOnce := fun m n _ h => ⟨h.count_isrToggle hrun, h.gate hrun⟩
    distance := fun m n _ => entryDistanceWithinLatency L ev st m n hrun hfits hlat
    pulses := fun m n _ h =>
      have ⟨hrsthi, hrstlo⟩ := h.count_pulse hrun
      ⟨hrsthi, hrstlo, h.rstOut hrun⟩
    edges := fun j hkj => hrun.rstOut_edges (hpor j hkj)
    period := fun j m hkj hjm hm hpoll => by
      have hporLater : ∀ i, j ≤ i → ev i ≠ .por := fun i hi => hpor i (hkj.trans hi)
      refine ⟨fun hj => hrun.ticks_activePeriod_of_poll hjm hm hporLater hpoll hj, ?_⟩
      rintro (hj | hj)
      · simpa using hrun.ticks_activePeriod_of_poll hjm hm hporLater hpoll hj
      · rw [hrun.activePeriod_of_init hjm hm hporLater hpoll hj] }

end Sys2Proof.Machine
